-- ==== Sys2Proof/Word.lean ====
section
/-! DEFINITION. The words the block's wires and counters carry: bytes, byte strings, the 32-bit corridor clock. -/

namespace Sys2Proof

/-- One character of the host link or of a panel line (R155, 7.3). -/
abbrev Byte := BitVec 8

/-- A body or a frame: its characters, first one first. -/
abbrev Bytes := List Byte

/-- The corridor clock: a 32-bit count of seconds that wraps (R8). -/
abbrev Clock := BitVec 32

/-- A set of the four lane status flags: bit 0 FAULT, 1 STOPPED_VEHICLE, 2 REVERSE, 3 SPARE (10.5). -/
abbrev LaneFlags := BitVec 4

/-- The byte of a number, low eight bits. -/
abbrev byteOf (n : Nat) : Byte := BitVec.ofNat 8 n

end Sys2Proof
end

