-- ==== Sys2Proof/Syntax.lean ====
section
/-! DEFINITION. The commands the block takes: one constructor of `Instr` per row of spec/opcode_table.json. -/

namespace Sys2Proof

/-- The four panel lines A, B, C, D (00 Conventions). -/
inductive LineId where
  | a | b | c | d
  deriving DecidableEq, Repr

/-- One character of a panel's reply as the line receives it (R130). -/
inductive RxChar where
  /-- a character received correctly -/
  | good (b : Byte)
  /-- a character whose stop bit is sampled low, or a break -/
  | framingError
  deriving DecidableEq, Repr

/-- The kinds of request of 9.7. -/
inductive RequestKind where
  | identify | status | reset | mapParams | mapGantry | mapSpeeds | mapBands | start | stop | detector
  | triggerSet | triggerEnable | triggerDisable | triggerRearm | warningClear
  | closureSet | closureRelease | closureQuery | operatorCap | operatorLegend | gantryQuery | panelQuery
  | historyFreeze | historyRead | historyResume | lineQuiesce | lineResume
  deriving DecidableEq, Repr

/-- The commands. A request carries the tag and the body of its frame and stands for the arrival of that frame, whole and
with a good CRC: the event in which its last check byte is received (R156, R161). -/
inductive Instr where
  | identify (tag : Byte) (body : Bytes)
  | status (tag : Byte) (body : Bytes)
  | reset (tag : Byte) (body : Bytes)
  | mapParams (tag : Byte) (body : Bytes)
  | mapGantry (tag : Byte) (body : Bytes)
  | mapSpeeds (tag : Byte) (body : Bytes)
  | mapBands (tag : Byte) (body : Bytes)
  | start (tag : Byte) (body : Bytes)
  | stop (tag : Byte) (body : Bytes)
  | detector (tag : Byte) (body : Bytes)
  | triggerSet (tag : Byte) (body : Bytes)
  | triggerEnable (tag : Byte) (body : Bytes)
  | triggerDisable (tag : Byte) (body : Bytes)
  | triggerRearm (tag : Byte) (body : Bytes)
  | warningClear (tag : Byte) (body : Bytes)
  | closureSet (tag : Byte) (body : Bytes)
  | closureRelease (tag : Byte) (body : Bytes)
  | closureQuery (tag : Byte) (body : Bytes)
  | operatorCap (tag : Byte) (body : Bytes)
  | operatorLegend (tag : Byte) (body : Bytes)
  | gantryQuery (tag : Byte) (body : Bytes)
  | panelQuery (tag : Byte) (body : Bytes)
  | historyFreeze (tag : Byte) (body : Bytes)
  | historyRead (tag : Byte) (body : Bytes)
  | historyResume (tag : Byte) (body : Bytes)
  | lineQuiesce (tag : Byte) (body : Bytes)
  | lineResume (tag : Byte) (body : Bytes)
  /-- a good frame whose kind names no request (R161) -/
  | unknownKind (kind tag : Byte) (body : Bytes)
  /-- a good frame at a full reply FIFO (R160) -/
  | requestDiscard
  /-- a frame whose CRC fails or whose length exceeds 240 (R159) -/
  | frameDiscard
  /-- a character with a low stop bit, or a break (R156) -/
  | framingError
  /-- more than 50 ms since the last character (R158) -/
  | interByteGapExpiry
  /-- the last check byte of the frame under way has been sent (R163) -/
  | frameSent
  | powerOn
  | supplyDip
  | nrstAssert
  | nrstRelease
  | corridorClockAdvance
  | planPeriodExpiry
  /-- the dwell timer of the closure with this id has run out, and with it every other of that advance (R97) -/
  | dwellExpiry (id : Nat)
  /-- the establish limit of the closure with this id, and of every other that is late, has been reached (R102) -/
  | establishLimitExpiry (id : Nat)
  /-- the refreshes due on this line (R129) -/
  | refreshDue (line : LineId)
  | transactionStart (line : LineId)
  | requestSent (line : LineId)
  /-- the seven characters of a reply have arrived (R130, R132) -/
  | replyComplete (line : LineId) (chars : List RxChar)
  | replyCharacterTimeout (line : LineId)
  | replyWindowEnd (line : LineId)
  | gapEnd (line : LineId)
  /-- the line's sensed supply falls to this many millivolts (R139) -/
  | supplyFallLow (line : LineId) (level : Nat)
  /-- the line's sensed supply rises to this many millivolts (R139, R141) -/
  | supplyRiseNormal (line : LineId) (level : Nat)
  /-- a correctly received character of the host link (R157) -/
  | hostCharacterReceived (char : Byte)
  /-- the start bit of a reply's first character (R130) -/
  | replyBegun (line : LineId)
  deriving DecidableEq, Repr

end Sys2Proof
end

