-- ==== Sys2Proof/Decode.lean ====
section
/-! DEFINITION. The table gives its rows no bits, so no word spells a command (`decodeTableWord`). The codes by which host
frames name their requests, and the lengths their bodies must have, stand here too: they are how the receiver reads a
request from a frame (R161, R175). -/

namespace Sys2Proof

/-- Every row of spec/opcode_table.json has empty "fields" and no "fixed": no word spells a command. -/
def decodeTableWord (_nbits _w : Nat) : Option Instr := none

/-- The kind codes of the requests (R175). -/
def RequestKind.code : RequestKind → Byte
  | .identify => 0x01
  | .status => 0x02
  | .reset => 0x03
  | .mapParams => 0x10
  | .mapGantry => 0x11
  | .mapSpeeds => 0x12
  | .mapBands => 0x13
  | .start => 0x14
  | .stop => 0x15
  | .detector => 0x20
  | .triggerSet => 0x30
  | .triggerEnable => 0x31
  | .triggerDisable => 0x32
  | .triggerRearm => 0x33
  | .warningClear => 0x34
  | .closureSet => 0x40
  | .closureRelease => 0x41
  | .closureQuery => 0x42
  | .operatorCap => 0x50
  | .operatorLegend => 0x51
  | .gantryQuery => 0x60
  | .panelQuery => 0x61
  | .historyFreeze => 0x68
  | .historyRead => 0x69
  | .historyResume => 0x6A
  | .lineQuiesce => 0x70
  | .lineResume => 0x71

/-- Every kind of request, in the order of 9.7. -/
def requestKinds : List RequestKind :=
  [.identify, .status, .reset, .mapParams, .mapGantry, .mapSpeeds, .mapBands, .start, .stop, .detector,
   .triggerSet, .triggerEnable, .triggerDisable, .triggerRearm, .warningClear,
   .closureSet, .closureRelease, .closureQuery, .operatorCap, .operatorLegend, .gantryQuery, .panelQuery,
   .historyFreeze, .historyRead, .historyResume, .lineQuiesce, .lineResume]

/-- The request a kind code names; none for a code of no request, 0x80 and above among them (R161). -/
def requestKindOf (kind : Byte) : Option RequestKind :=
  requestKinds.find? (fun k => k.code == kind)

/-- The body length a counted kind must have, from the count byte at an offset (R175): fixed part and bytes per entry. -/
def countedLength (body : Bytes) (offset fixed each : Nat) : Bool :=
  match body[offset]? with
  | none => false
  | some n => body.length == fixed + each * n.toNat

/-- The link port's length test, made before the owning block sees the request (R161, R175). -/
def lengthFits (k : RequestKind) (body : Bytes) : Bool :=
  match k with
  | .identify | .status | .reset | .stop | .historyFreeze | .historyResume => body.length == 0
  | .mapParams => body.length == 18
  | .mapGantry => countedLength body 3 7 2
  | .mapSpeeds => countedLength body 0 1 1
  | .mapBands => countedLength body 0 1 7
  | .start | .triggerEnable | .triggerDisable | .triggerRearm | .warningClear | .closureRelease | .closureQuery
  | .operatorCap | .gantryQuery | .lineQuiesce | .lineResume => body.length == 1
  | .detector => countedLength body 2 3 5
  | .triggerSet => body.length == 20
  | .closureSet => body.length == 7
  | .operatorLegend | .panelQuery | .historyRead => body.length == 2

end Sys2Proof
end

