-- ==== Sys2Proof/Config.lean ====
section
/-! DEFINITION. What the part fixes, and the free values of the model. -/

namespace Sys2Proof.Config

/-- R162: the reply FIFO holds 0..4 replies. -/
abbrev replyCapacity : Nat := 4

/-- R165: the report queue holds at most 32 reports. -/
abbrev reportCapacity : Nat := 32

/-- R56: the warning table holds at most 16 records. -/
abbrev warningCapacity : Nat := 16

/-- R86: the closure table holds at most 8 records. -/
abbrev closureCapacity : Nat := 8

/-- R86: no closure's taper list exceeds 5 gantries. -/
abbrev taperCapacity : Nat := 5

/-- R149: the ring holds up to 64 records. -/
abbrev ringCapacity : Nat := 64

/-- R10 item 7: no line has more than 64 panels. -/
abbrev linePanels : Nat := 64

/-- R173: a frame's body holds 0..240 bytes. -/
abbrev maxBody : Nat := 240

/-- R159, R160: the discard counts stop at 65535. -/
abbrev countCeiling : Nat := 65535

/-- R139: below 19.0 V a NORMAL line becomes LOW (millivolts). -/
abbrev supplyLow : Nat := 19000

/-- R139: above 20.5 V a LOW line becomes NORMAL (millivolts). -/
abbrev supplyNormal : Nat := 20500

/-- R168: the vendor string "Pelorin", in ASCII. -/
def vendor : Bytes := [0x50, 0x65, 0x6C, 0x6F, 0x72, 0x69, 0x6E]

/-- R168: the part string "Corbek CA32", in ASCII. -/
def part : Bytes := [0x43, 0x6F, 0x72, 0x62, 0x65, 0x6B, 0x20, 0x43, 0x41, 0x33, 0x32]

/-- R168: the silicon revision number. -/
def revision : Byte := 1

/-- FREE VALUE (notes/assumptions/3.md, DESIGN CHOICE). What follows the whole sections that fit in a reply whose items
need more than the 240 bytes a frame can hold: the spec gives the items (R40, R84, R147) and the limit (R173) and no result
where they meet. -/
opaque oversizeBody : Bytes → Bytes

/-- FREE VALUES (notes/assumptions/15.md, DESIGN CHOICE). The codes of the classes SAFETY and ROUTINE in a panel section:
R147 carries the class and 10.5 gives it no code. -/
opaque safetyCode : Byte

opaque routineCode : Byte

end Sys2Proof.Config
end

