-- ==== Sys2Proof/Machine/State.lean ====
section
/-! DEFINITION. Everything the spec gives the block to hold, as plain data, and the state right after a power-on reset. -/

namespace Sys2Proof.Machine

open Sys2Proof

/-! ## Stops -/

/-- No command of the block faults: the spec gives the block nothing that stops it (INVENTORY.md, Faults). Safe. -/
inductive Fault where
  deriving DecidableEq, Repr

/-- Why a command is refused. -/
inductive Refusal where
  /-- Raised by `exec`'s arm of a command that has no meaning yet; no arm raises it now. Safe. -/
  | notModelled (mnemonic : String)
  deriving DecidableEq, Repr

/-! ## Per-line data -/

/-- One value for each of the four panel lines. -/
structure PerLine (α : Type) where
  a : α
  b : α
  c : α
  d : α
  deriving DecidableEq, Repr

/-! ## Corridor map (chapter 1) -/

/-- R7: the operating state. -/
inductive OpState where
  | stopped | running
  deriving DecidableEq, Repr

/-- R15: why the part last reset. -/
inductive ResetCause where
  | powerOn | supplyDip | resetPin | hostRequest
  deriving DecidableEq, Repr

/-- The fifteen corridor parameters of 1.2, in field order. -/
structure Params where
  gantryCount : Nat
  laneCount : Nat
  planPeriod : Nat
  maxDrop : Nat
  holdUp : Nat
  staleLimit : Nat
  kSpeed : Nat
  kOcc : Nat
  legendReach : Nat
  congestionBand : Nat
  failLimit : Nat
  recoverCount : Nat
  degradePercent : Nat
  refreshPeriod : Nat
  establishLimit : Nat
  deriving DecidableEq, Repr

/-- The parameters after power-on: G = 0, N = 0, all others at the defaults of 1.2. -/
def Params.default : Params where
  gantryCount := 0
  laneCount := 0
  planPeriod := 10
  maxDrop := 20
  holdUp := 3
  staleLimit := 3
  kSpeed := 8
  kOcc := 4
  legendReach := 1500
  congestionBand := 2
  failLimit := 3
  recoverCount := 2
  degradePercent := 10
  refreshPeriod := 60
  establishLimit := 120

/-- How a panel is reached: its line and its address 1..126 on it. -/
structure PanelAddr where
  line : LineId
  address : Nat
  deriving DecidableEq, Repr

/-- A gantry record of the map (1.1): `lanes` holds lane 1 first. -/
structure GantryRec where
  chainage : Nat
  lanes : List PanelAddr
  message : Option PanelAddr
  deriving DecidableEq, Repr

/-- A band of the band table (1.1). -/
structure Band where
  occOn : Nat
  occOff : Nat
  spdOn : Nat
  spdOff : Nat
  limit : Nat
  deriving DecidableEq, Repr

/-- A panel of a gantry: panel 0 is the message panel, 1..5 the lane (10.5). -/
structure PanelId where
  gantry : Nat
  panel : Nat
  deriving DecidableEq, Repr

/-! ## Traffic state (chapter 2) -/

/-- The traffic items of one lane (2.1). -/
structure LaneTraffic where
  present : Bool
  /-- smoothed speed, sixteenths of a km/h -/
  speed : Option Nat
  /-- smoothed occupancy, sixteenths of a per-mille -/
  occ : Option Nat
  count : Option Nat
  flags : Option LaneFlags
  deriving DecidableEq, Repr

/-- A lane as START leaves it (R39). -/
def LaneTraffic.none : LaneTraffic := ⟨false, Option.none, Option.none, Option.none, Option.none⟩

/-- The traffic record of one gantry (2.1). -/
structure TrafficRec where
  absent : Bool
  age : Nat
  lastSeq : Option Nat
  band : Nat
  aggSpeed : Option Nat
  aggOcc : Option Nat
  aggStatus : Option LaneFlags
  aggCount : Option Nat
  lanes : List LaneTraffic
  deriving DecidableEq, Repr

/-- A gantry as START leaves it (R39). -/
def TrafficRec.fresh (laneCount : Nat) : TrafficRec where
  absent := true
  age := 0
  lastSeq := none
  band := 0
  aggSpeed := none
  aggOcc := none
  aggStatus := none
  aggCount := none
  lanes := List.replicate laneCount LaneTraffic.none

/-! ## Trigger unit (chapter 3) -/

/-- What a comparator reads (3.1). -/
inductive TrigField where
  | speed | occ | count | dspeed | band | status
  deriving DecidableEq, Repr

/-- A comparator's relation (R48). -/
inductive Relation where
  | le | ge | eq | ne
  deriving DecidableEq, Repr

/-- How the two comparators make one outcome (3.1). -/
inductive TrigMode where
  | a | aOrB | aAndB | aThenB
  deriving DecidableEq, Repr

/-- What the comparators read: the aggregates or one lane (3.1). -/
inductive Source where
  | aggregate
  | lane (l : Nat)
  deriving DecidableEq, Repr

/-- A comparator (3.1). -/
structure Comparator where
  field : TrigField
  relation : Relation
  value : Int
  mask : LaneFlags
  deriving DecidableEq, Repr

/-- The actions of a program (3.1). -/
structure Actions where
  warn : Bool
  report : Bool
  freeze : Bool
  rearm : Bool
  deriving DecidableEq, Repr

/-- The fields of a set trigger program (3.1). -/
structure Program where
  first : Nat
  last : Nat
  source : Source
  compA : Comparator
  compB : Comparator
  mode : TrigMode
  window : Nat
  preset : Nat
  actions : Actions
  warnCap : Nat
  warnHold : Nat
  deriving DecidableEq, Repr

/-- One of the eight programs: unset or set, disabled or enabled (3.1). -/
structure ProgramSlot where
  fields : Option Program
  enabled : Bool
  deriving DecidableEq, Repr

/-- The working state of a program at one gantry (R44). -/
structure TrigInst where
  program : Nat
  gantry : Nat
  counter : Nat
  window : Nat
  fired : Bool
  deriving DecidableEq, Repr

/-- A record of the warning table (R56). The table is kept in rising gantry order (notes/assumptions/8.md). -/
structure Warning where
  gantry : Nat
  /-- program numbers, rising -/
  owners : List Nat
  requestedCap : Nat
  cap : Nat
  hold : Nat
  start : Clock
  deriving DecidableEq, Repr

/-! ## Speed plan (chapter 4) -/

/-- The source that gave a demand (R72). -/
inductive Binding where
  | operator
  | closure (id : Nat)
  | warning
  | congestion
  | initial
  | maximum
  deriving DecidableEq, Repr

/-- The cause the aspect table gives to a gantry's speed aspect (R72). -/
inductive SpeedCause where
  | plan | operator
  deriving DecidableEq, Repr

/-- The plan record of one gantry (R64). -/
structure PlanRec where
  demand : Nat
  binding : Binding
  rounded : Nat
  clamped : Bool
  target : Nat
  shown : Nat
  riseWait : Nat
  cause : SpeedCause
  deriving DecidableEq, Repr

/-! ## Closure unit (chapter 5) -/

/-- The state of a held closure (R86): a record that reaches ENDED is freed. -/
inductive ClosureState where
  | requested | arrows | dwell | closed | releasing
  deriving DecidableEq, Repr

/-- The kind of a duty (R93). -/
inductive DutyKind where
  | arrow | capped | none
  deriving DecidableEq, Repr

/-- A duty: one taper gantry and lane (R93). -/
structure Duty where
  gantry : Nat
  lane : Nat
  kind : DutyKind
  settled : Bool
  deriving DecidableEq, Repr

/-- A closure record (R86). The table is kept in rising id (notes/assumptions/8.md). -/
structure Closure where
  id : Nat
  /-- lanes, rising -/
  lanes : List Nat
  first : Nat
  last : Nat
  taperCount : Nat
  requestedCap : Nat
  cap : Nat
  dwell : Nat
  state : ClosureState
  /-- in order of joining -/
  taper : List Nat
  full : Bool
  taperBlocked : Bool
  taperLost : Bool
  slow : Bool
  created : Clock
  dwellEntry : Option Clock
  duties : List Duty
  deriving DecidableEq, Repr

/-- Which way an arrow points: toward the nearside (lane 1) or the offside (R91). -/
inductive Arrow where
  | near | off
  deriving DecidableEq, Repr

/-- An entry of the arrow map (R92). -/
structure ArrowEntry where
  gantry : Nat
  lane : Nat
  arrow : Arrow
  id : Nat
  deriving DecidableEq, Repr

/-- An entry of the cross map (R92). -/
structure CrossEntry where
  gantry : Nat
  lane : Nat
  id : Nat
  deriving DecidableEq, Repr

/-! ## Aspect table (chapter 6) -/

/-- What a panel shows (00, R109): the lane aspects, and a message panel's legend and lanterns. -/
inductive Aspect where
  | blank
  | speed (v : Nat)
  | arrowNear
  | arrowOff
  | cross
  | message (legend : Nat) (lanterns : Bool)
  deriving DecidableEq, Repr

/-- The cause of an entry (R120). -/
inductive Cause where
  | plan | operator | warning
  | closure (id : Nat)
  | failed | recovered
  deriving DecidableEq, Repr

/-- An entry of the aspect table (R109). -/
structure AspectEntry where
  panel : PanelId
  desired : Aspect
  cause : Cause
  deriving DecidableEq, Repr

/-! ## Panel lines (chapter 7) -/

/-- R124: what a line is doing. -/
inductive LineMode where
  | idle | busy | gap | quiesced
  deriving DecidableEq, Repr

/-- R124, R139: whether the line's panel supply can be trusted. -/
inductive Supply where
  | normal | low
  deriving DecidableEq, Repr

/-- R124: the class of a pending entry. -/
inductive EntryClass where
  | safety | routine
  deriving DecidableEq, Repr

/-- R124: a pending entry; its line is the line whose queue holds it, its content is not held. -/
structure PendEntry where
  address : Nat
  cls : EntryClass
  deriving DecidableEq, Repr

/-- The three aspect bytes of 10.5. -/
structure AspectBytes where
  code : Byte
  speed : Byte
  legend : Byte
  deriving DecidableEq, Repr

/-- R130: the phase of a transaction: its request is being sent, with the line's transmit enable asserted
(`Line.transmitEnable`), its reply awaited, its reply received. -/
inductive Phase where
  | send | wait | receive
  deriving DecidableEq, Repr

/-- R124: the in-flight transaction. -/
structure InFlight where
  address : Nat
  sent : AspectBytes
  cls : EntryClass
  phase : Phase
  deriving DecidableEq, Repr

/-- R124: one panel line. -/
structure Line where
  mode : LineMode
  quiescePending : Bool
  supply : Supply
  /-- oldest first -/
  queue : List PendEntry
  inFlight : Option InFlight
  deriving DecidableEq, Repr

/-- R124, R145: a line as a reset leaves it, but for its supply state. -/
def Line.rest (supply : Supply) : Line := ⟨.idle, false, supply, [], none⟩

/-- R135: the health of a panel. -/
inductive Health where
  | healthy | suspect | failed
  deriving DecidableEq, Repr

/-- R132: the outcome of a transaction. -/
inductive TxOutcome where
  | good | mismatch | noReply
  deriving DecidableEq, Repr

/-- R125: the record of one panel, held under its gantry index and panel with the line and address START's map gave it. -/
structure PanelRec where
  panel : PanelId
  addr : PanelAddr
  confirmed : Option Aspect
  health : Health
  failCount : Nat
  goodCount : Nat
  degraded : Bool
  pixel : Option Nat
  fault : Option Byte
  lastOutcome : Option TxOutcome
  lastTime : Clock
  deriving DecidableEq, Repr

/-- R12, R125: a panel record as START makes it. -/
def PanelRec.fresh (panel : PanelId) (addr : PanelAddr) : PanelRec where
  panel := panel
  addr := addr
  confirmed := none
  health := .healthy
  failCount := 0
  goodCount := 0
  degraded := false
  pixel := none
  fault := none
  lastOutcome := none
  lastTime := 0

/-! ## History capture (chapter 8) -/

/-- R148: a history record; `good` tells GOOD from MISMATCH. -/
structure HistRec where
  time : Clock
  panel : PanelId
  previous : Option Aspect
  now : Aspect
  cause : Cause
  good : Bool
  deriving DecidableEq, Repr

/-- R150: what froze the capture. -/
inductive FreezeSource where
  | request
  | trigger (program gantry : Nat)
  deriving DecidableEq, Repr

/-- R150: the freeze time and source. -/
structure Freeze where
  time : Clock
  source : FreezeSource
  deriving DecidableEq, Repr

/-- R149, R150: the capture. `held` is the length of `ring`, index 0 the oldest; it is FROZEN when `frozen` holds the
freeze, CAPTURING when it holds none. -/
structure History where
  ring : List HistRec
  written : Nat
  frozen : Option Freeze
  deriving DecidableEq, Repr

/-- R154: the capture after a power-on or supply-dip reset. -/
def History.empty : History := ⟨[], 0, none⟩

/-! ## Link port (chapter 9) -/

/-- The bytes of a frame between start and body (R155). -/
structure FrameHead where
  length : Byte
  kind : Byte
  tag : Byte
  flags : Byte
  deriving DecidableEq, Repr

/-- R157: the receiver and what it has kept of the frame it is assembling. -/
inductive Receiver where
  | hunt
  /-- the header bytes kept so far, fewer than four -/
  | header (kept : Bytes)
  | body (head : FrameHead) (kept : Bytes)
  | check (head : FrameHead) (body : Bytes) (first : Option Byte)
  deriving DecidableEq, Repr

/-- What a frame from the part carries besides its flags (R173). -/
structure Frame where
  kind : Byte
  tag : Byte
  body : Bytes
  deriving DecidableEq, Repr

/-- R163, R164: the frame under way, with the flags it started with. -/
structure TxFrame where
  frame : Frame
  overrun : Bool
  reportsLost : Bool
  deriving DecidableEq, Repr

/-- R55: a value a comparator read. -/
inductive ReadVal where
  | notRead
  | unknown
  | known (v : Int)
  deriving DecidableEq, Repr

/-- R54: what became of a firing's WARN. -/
inductive Placement where
  | none | placed | merged | notPlaced
  deriving DecidableEq, Repr

/-- The reasons a warning ends with (R61). -/
inductive EndReason where
  | holdExpired | cleared | ownersDisabled | stopped
  deriving DecidableEq, Repr

/-- R62: started, or ended with its reason. -/
inductive WarningEvent where
  | started
  | ended (reason : EndReason)
  deriving DecidableEq, Repr

/-- The marks whose setting and clearing is reported (R106). -/
inductive Mark where
  | taperBlocked | taperLost | slow
  deriving DecidableEq, Repr

/-- R106: what a CLOSURE_STATE report reports; the state after, none for ENDED. -/
inductive ClosureEvent where
  | created
  | state
  | markSet (m : Mark)
  | markCleared (m : Mark)
  deriving DecidableEq, Repr

/-- The reports of 9.7, each with its items. A GANTRY_SHOWN in the queue holds its gantry alone: its content is read when
its transmission starts (R166). -/
inductive Report where
  | restart (clock : Clock) (cause : ResetCause)
  | triggerFired (clock : Clock) (program gantry : Nat) (fired : Bool) (readA readB : ReadVal) (placed : Placement)
  | panelHealth (clock : Clock) (panel : PanelRec) (before : Health) (outcome : TxOutcome)
  /-- `closure` is the record as it stands at the event; `after` is none when it has ENDED -/
  | closureState (clock : Clock) (event : ClosureEvent) (before : ClosureState) (after : Option ClosureState) (closure : Closure)
  | gantryShown (gantry : Nat)
  | lineState (clock : Clock) (line : LineId) (supply : Supply) (mode : LineMode) (quiescePending : Bool) (queued : Nat)
  | warningState (clock : Clock) (event : WarningEvent) (warning : Warning)
  | historyFrozen (freeze : Freeze) (held written : Nat)
  deriving DecidableEq, Repr

/-- Chapter 9: the link port. -/
structure Link where
  rx : Receiver
  replies : List Frame
  urgent : List Report
  routine : List Report
  overrun : Bool
  reportsLost : Bool
  frameDiscards : Nat
  requestDiscards : Nat
  /-- the frame under way; none when the transmitter is free -/
  tx : Option TxFrame
  /-- RESET has been acted on and has not yet taken effect (R170) -/
  resetPending : Bool
  deriving DecidableEq, Repr

/-- R171: the link port as every reset leaves it, before RESTART is placed. -/
def Link.rest : Link := ⟨.hunt, [], [], [], false, false, 0, 0, none, false⟩

/-! ## The whole block -/

/-- The block. INVENTORY.md names the rule and the reset value of each field. -/
structure State where
  /-- the commands waiting, the next one first (the model's own field) -/
  pending : List Instr
  params : Params
  gantries : List (Option GantryRec)
  speeds : Option (List Nat)
  bands : Option (List Band)
  operating : OpState
  clock : Clock
  planTimer : Nat
  operatorCap : Nat
  resetCause : ResetCause
  nrstLow : Bool
  sense : PerLine Nat
  traffic : List TrafficRec
  programs : List ProgramSlot
  insts : List TrigInst
  warnings : List Warning
  plan : List PlanRec
  closures : List Closure
  arrowMap : List ArrowEntry
  crossMap : List CrossEntry
  aspects : List AspectEntry
  legends : List Nat
  lines : PerLine Line
  panels : List PanelRec
  history : History
  link : Link
  deriving DecidableEq, Repr

/-- The state right after a power-on reset with NRST high and every line supply NORMAL: every item at its power-on value
(R16), and the RESTART report, placed first (R19), under way on the free transmitter (R163), with kind 0xF0, tag 0 and a
body of the corridor clock and the reset cause (R177). DESIGN CHOICE: the levels of the pins (notes/assumptions/4.md, 5.md). -/
def State.reset : State where
  pending := []
  params := Params.default
  gantries := []
  speeds := none
  bands := none
  operating := .stopped
  clock := 0
  planTimer := 0
  operatorCap := 0
  resetCause := .powerOn
  nrstLow := false
  sense := ⟨24000, 24000, 24000, 24000⟩
  traffic := []
  programs := List.replicate 8 ⟨none, false⟩
  insts := []
  warnings := []
  plan := []
  closures := []
  arrowMap := []
  crossMap := []
  aspects := []
  legends := List.replicate 32 0
  lines := ⟨Line.rest .normal, Line.rest .normal, Line.rest .normal, Line.rest .normal⟩
  panels := []
  history := History.empty
  link := { Link.rest with tx := some ⟨⟨0xF0, 0, [0, 0, 0, 0, 0]⟩, false, false⟩ }

end Sys2Proof.Machine
end

