-- ==== Sys2Proof/Machine/Flags.lean ====
section
/-! DEFINITION. Flags and checks: the lane status flags as sets, the frame flags, the two cyclic redundancy checks. -/

namespace Sys2Proof.Machine

open Sys2Proof

/-! ## Lane status flags (10.5, R46) -/

/-- FAULT, bit 0. -/
def LaneFlags.fault (f : LaneFlags) : Bool := f.getLsbD 0

/-- The flags of a flags byte (10.5). -/
def laneFlagsOf (b : Byte) : LaneFlags := b.setWidth 4

/-- A flags byte names nothing outside the four flags (R20, R176). -/
def laneFlagsLegal (b : Byte) : Bool := decide (b.toNat < 16)

/-! ## Frame flags (R173) -/

/-- The flags byte of a frame: bit 0 OVERRUN, bit 1 REPORTS_LOST, bits 2..7 zero. -/
def frameFlags (overrun reportsLost : Bool) : Byte :=
  (if overrun then 1 else 0) ||| (if reportsLost then 2 else 0)

/-! ## Checks -/

/-- The bits of a byte, most significant first. -/
def bitsOf (b : Byte) : List Bool := [7, 6, 5, 4, 3, 2, 1, 0].map b.getLsbD

/-- One bit of the host frame's check (R174). -/
def crc16Bit (reg : BitVec 16) (bit : Bool) : BitVec 16 :=
  if (reg.getLsbD 15 ^^ bit) then (reg <<< 1) ^^^ 0x1021 else reg <<< 1

/-- The check of a host frame over these bytes (R174). -/
def crc16 (bytes : Bytes) : BitVec 16 :=
  bytes.foldl (fun reg b => (bitsOf b).foldl crc16Bit reg) 0xFFFF

/-- One bit of a panel-line frame's check (R178). -/
def crc8Bit (reg : BitVec 8) (bit : Bool) : BitVec 8 :=
  if (reg.getLsbD 7 ^^ bit) then (reg <<< 1) ^^^ 0x31 else reg <<< 1

/-- The check of a panel-line frame over these bytes (R178). -/
def crc8 (bytes : Bytes) : Byte :=
  bytes.foldl (fun reg b => (bitsOf b).foldl crc8Bit reg) 0xFF

/-- The two check bytes of a host frame, high byte first (R155). -/
def checkBytes (bytes : Bytes) : Bytes :=
  [(crc16 bytes >>> 8).setWidth 8, (crc16 bytes).setWidth 8]

/-- A frame from the start byte to the last check byte (R173). -/
def wireOf (kind tag flags : Byte) (body : Bytes) : Bytes :=
  0x7E :: (byteOf body.length :: kind :: tag :: flags :: body)
    ++ checkBytes (byteOf body.length :: kind :: tag :: flags :: body)

/-- The characters the transmitter sends for the frame under way (R163, R173, R174). -/
def TxFrame.wire (f : TxFrame) : Bytes :=
  wireOf f.frame.kind f.frame.tag (frameFlags f.overrun f.reportsLost) f.frame.body

/-- The five characters of the SHOW request of an in-flight transaction (R178, R179). -/
def InFlight.request (t : InFlight) : Bytes :=
  [byteOf t.address, t.sent.code, t.sent.speed, t.sent.legend,
   crc8 [byteOf t.address, t.sent.code, t.sent.speed, t.sent.legend]]

end Sys2Proof.Machine
end

