-- ==== Sys2Proof/Machine/Format.lean ====
section
/-! DEFINITION. The codes of 10.5 and the bytes of reply and report items (R177). DESIGN CHOICE: an item the spec carries
only under a condition that an earlier item of the same body tells is left out when the condition fails, as the closure id
of a cause is; an item with an absent, none or unknown case has a presence byte (notes/assumptions/14.md). -/

namespace Sys2Proof.Machine

open Sys2Proof

/-! ## Scalars -/

/-- A one-byte item. -/
def enc8 (n : Nat) : Bytes := [byteOf n]

/-- A two-byte item, high byte first. -/
def enc16 (n : Nat) : Bytes := [byteOf (n / 256), byteOf n]

/-- A signed two-byte item in two's complement. -/
def encS16 (v : Int) : Bytes :=
  [(BitVec.ofInt 16 v >>> 8).setWidth 8, (BitVec.ofInt 16 v).setWidth 8]

/-- The corridor clock: four bytes, high byte first. -/
def encClock (c : Clock) : Bytes :=
  [(c >>> 24).setWidth 8, (c >>> 16).setWidth 8, (c >>> 8).setWidth 8, c.setWidth 8]

/-- A mark or yes/no. -/
def encBool (b : Bool) : Bytes := [if b then 1 else 0]

/-- An optional item: a presence byte, then the item's bytes, which read 0 when absent. -/
def encOpt {α : Type} (width : Nat) (enc : α → Bytes) : Option α → Bytes
  | none => 0 :: List.replicate width 0
  | some v => 1 :: enc v

/-- A list: a count byte, then the entries in order. -/
def encList {α : Type} (enc : α → Bytes) (l : List α) : Bytes := byteOf l.length :: l.flatMap enc

/-- A set of numbers as bits: bit n-base for n. -/
def encSet (base : Nat) (l : List Nat) : Bytes :=
  [l.foldl (fun acc n => acc ||| (1 <<< (n - base) : Byte)) 0]

/-! ## Codes of 10.5 -/

/-- The result codes (R167, 10.5). -/
inductive Result where
  | ok | unknownKind | badLength | wrongState | badValue | badMap | noRoom | idInUse | noSuchId | staleSeq | notFrozen
  | closuresPresent
  deriving DecidableEq, Repr

def Result.code : Result → Byte
  | .ok => 0x00
  | .unknownKind => 0x01
  | .badLength => 0x02
  | .wrongState => 0x03
  | .badValue => 0x04
  | .badMap => 0x05
  | .noRoom => 0x06
  | .idInUse => 0x07
  | .noSuchId => 0x08
  | .staleSeq => 0x09
  | .notFrozen => 0x0A
  | .closuresPresent => 0x0B

def OpState.code : OpState → Byte
  | .stopped => 0
  | .running => 1

def ResetCause.code : ResetCause → Byte
  | .powerOn => 0
  | .supplyDip => 1
  | .resetPin => 2
  | .hostRequest => 3

def lineCode : LineId → Byte
  | .a => 0
  | .b => 1
  | .c => 2
  | .d => 3

def Placement.code : Placement → Byte
  | .none => 0
  | .placed => 1
  | .merged => 2
  | .notPlaced => 3

def EndReason.code : EndReason → Byte
  | .holdExpired => 0
  | .cleared => 1
  | .ownersDisabled => 2
  | .stopped => 3

def ClosureState.code : ClosureState → Byte
  | .requested => 0
  | .arrows => 1
  | .dwell => 2
  | .closed => 3
  | .releasing => 4

/-- The code of ENDED, which no held record has. -/
def endedCode : Byte := 5

def DutyKind.code : DutyKind → Byte
  | .arrow => 0
  | .capped => 1
  | .none => 2

def Health.code : Health → Byte
  | .healthy => 0
  | .suspect => 1
  | .failed => 2

def TxOutcome.code : TxOutcome → Byte
  | .good => 0
  | .mismatch => 1
  | .noReply => 2

def LineMode.code : LineMode → Byte
  | .idle => 0
  | .busy => 1
  | .gap => 2
  | .quiesced => 3

def Supply.code : Supply → Byte
  | .normal => 0
  | .low => 1

/-- R147 carries a pending entry's class and 10.5 gives it no codes: free values (notes/assumptions/15.md). -/
def EntryClass.code : EntryClass → Byte
  | .safety => Config.safetyCode
  | .routine => Config.routineCode

def SpeedCause.code : SpeedCause → Byte
  | .plan => 0
  | .operator => 1

/-- A binding source, the closure id after CLOSURE (10.5, R84). -/
def encBinding : Binding → Bytes
  | .operator => [0]
  | .closure id => [1, byteOf id]
  | .warning => [2]
  | .congestion => [3]
  | .initial => [4]
  | .maximum => [5]

/-- A cause, the closure id after CLOSURE (10.5). -/
def encCause : Cause → Bytes
  | .plan => [0]
  | .operator => [1]
  | .warning => [2]
  | .closure id => [3, byteOf id]
  | .failed => [4]
  | .recovered => [5]

/-- A freeze source, program and gantry after TRIGGER (10.5). -/
def encFreezeSource : FreezeSource → Bytes
  | .request => [0]
  | .trigger p g => [1, byteOf p, byteOf g]

/-- A mark named in a closure event, as its bit of the marks byte (10.5; DESIGN CHOICE, notes/assumptions/14.md). -/
def Mark.code : Mark → Byte
  | .taperBlocked => 2
  | .taperLost => 4
  | .slow => 8

/-- The closure marks: bit 0 FULL, 1 TAPER_BLOCKED, 2 TAPER_LOST, 3 SLOW (10.5). -/
def encMarks (c : Closure) : Bytes :=
  [(if c.full then 1 else 0) ||| (if c.taperBlocked then 2 else 0) ||| (if c.taperLost then 4 else 0)
    ||| (if c.slow then 8 else 0)]

/-- Lane flags, one bit each (10.5). -/
def encLaneFlags (f : LaneFlags) : Bytes := [f.setWidth 8]

/-! ## Aspects (10.5, R179, R180) -/

/-- The three aspect bytes of an aspect. -/
def Aspect.bytes : Aspect → AspectBytes
  | .blank => ⟨0x00, 0, 0⟩
  | .speed v => ⟨0x01, byteOf v, 0⟩
  | .arrowNear => ⟨0x02, 0, 0⟩
  | .arrowOff => ⟨0x03, 0, 0⟩
  | .cross => ⟨0x04, 0, 0⟩
  | .message legend lanterns => ⟨0x08, 0, byteOf (legend % 16) ||| (if lanterns then 0x80 else 0)⟩

/-- The aspect the echo of a lane panel's reply decodes to (R180). -/
def decodeLane (b : AspectBytes) : Option Aspect :=
  if b.legend ≠ 0 then none
  else if b.code = 0x01 then some (.speed b.speed.toNat)
  else if b.speed ≠ 0 then none
  else if b.code = 0x00 then some .blank
  else if b.code = 0x02 then some .arrowNear
  else if b.code = 0x03 then some .arrowOff
  else if b.code = 0x04 then some .cross
  else none

/-- The aspect the echo of a message panel's reply decodes to: bits 4..6 of the legend byte clear (R180). -/
def decodeMessage (b : AspectBytes) : Option Aspect :=
  if b.code = 0x08 ∧ b.speed = 0 ∧ b.legend &&& 0x70 = 0 then
    some (.message (b.legend.toNat % 16) (b.legend.getLsbD 7))
  else none

/-- The aspect of the panel's kind that an echo decodes to; panel 0 is the message panel (R180). -/
def decodeAspect (panel : Nat) (b : AspectBytes) : Option Aspect :=
  if panel = 0 then decodeMessage b else decodeLane b

/-- An aspect item: its three aspect bytes (R177). -/
def encAspect (a : Aspect) : Bytes := [a.bytes.code, a.bytes.speed, a.bytes.legend]

/-! ## Reports (R177, 9.7) -/

/-- The count of duties and of settled duties, in ARROWS, DWELL and CLOSED (R106). -/
def encDutyCounts (c : Closure) : Option ClosureState → Bytes
  | some .arrows | some .dwell | some .closed =>
    enc8 c.duties.length ++ enc8 (c.duties.filter (·.settled)).length
  | _ => []

/-- A closure event: CREATED, STATE, MARK_SET or MARK_CLEARED with the mark named (R106, 10.5). -/
def encClosureEvent : ClosureEvent → Bytes
  | .created => [0]
  | .state => [1]
  | .markSet m => [2, m.code]
  | .markCleared m => [3, m.code]

/-- A warning event, with the reason for ENDED (R62, 10.5). -/
def encWarningEvent : WarningEvent → Bytes
  | .started => [0]
  | .ended r => [1, r.code]

/-- A value read: 0 not read, 1 unknown, 2 known, then two bytes signed (R177). That the two bytes read 0 where the value is not
read or unknown is the model's (DESIGN CHOICE, notes/assumptions/14.md). -/
def encReadVal : ReadVal → Bytes
  | .notRead => [0, 0, 0]
  | .unknown => [1, 0, 0]
  | .known v => 2 :: encS16 v

/-- The kind code of a report (R175). -/
def Report.kind : Report → Byte
  | .restart .. => 0xF0
  | .triggerFired .. => 0xF1
  | .panelHealth .. => 0xF2
  | .closureState .. => 0xF3
  | .gantryShown .. => 0xF4
  | .lineState .. => 0xF5
  | .warningState .. => 0xF6
  | .historyFrozen .. => 0xF7

/-- The class of a report, fixed by its kind (9.7): GANTRY_SHOWN and WARNING_STATE are routine. -/
def Report.urgent : Report → Bool
  | .gantryShown .. | .warningState .. => false
  | .restart .. | .triggerFired .. | .panelHealth .. | .closureState .. | .lineState .. | .historyFrozen .. => true

/-- The confirmed aspects of a gantry's panel records: lanes rising, then the message panel (R166). -/
def shownAspects (panels : List PanelRec) (gantry : Nat) : List (Option Aspect) :=
  ((panels.filter (fun p => p.panel.gantry == gantry && p.panel.panel != 0))
    ++ (panels.filter (fun p => p.panel.gantry == gantry && p.panel.panel == 0))).map (·.confirmed)

/-- The body of a report; a GANTRY_SHOWN is read from the clock and the panel records as they stand (R166). -/
def Report.body (now : Clock) (panels : List PanelRec) : Report → Bytes
  | .restart clock cause => encClock clock ++ [cause.code]
  | .triggerFired clock program gantry fired readA readB placement =>
    encClock clock ++ enc8 program ++ enc8 gantry ++ encBool fired ++ encReadVal readA ++ encReadVal readB
      ++ [placement.code]
  | .panelHealth clock p before outcome =>
    encClock clock ++ [lineCode p.addr.line] ++ enc8 p.addr.address ++ enc8 p.panel.gantry ++ enc8 p.panel.panel
      ++ [before.code, p.health.code] ++ enc8 p.failCount ++ enc8 p.goodCount ++ [outcome.code]
      ++ encOpt 1 (fun b => [b]) p.fault ++ encOpt 1 enc8 p.pixel ++ encBool p.degraded
  | .closureState clock event before after c =>
    encClock clock ++ enc8 c.id ++ encClosureEvent event
      ++ [before.code, match after with | some st => st.code | none => endedCode]
      ++ encMarks c ++ encList enc8 c.taper ++ encDutyCounts c after
  | .gantryShown gantry => encClock now ++ enc8 gantry ++ (shownAspects panels gantry).flatMap (encOpt 3 encAspect)
  | .lineState clock line supply mode qp queued =>
    encClock clock ++ [lineCode line, supply.code, mode.code] ++ encBool qp ++ enc8 queued
  | .warningState clock event w =>
    encClock clock ++ enc8 w.gantry ++ encWarningEvent event ++ enc8 w.cap ++ enc8 w.requestedCap
      ++ encSet 0 w.owners ++ encClock w.start
  | .historyFrozen f held written => encClock f.time ++ encFreezeSource f.source ++ enc16 held ++ enc16 written

/-- A report as a frame: tag 0 (R173). -/
def Report.frame (now : Clock) (panels : List PanelRec) (r : Report) : Frame := ⟨r.kind, 0, r.body now panels⟩

end Sys2Proof.Machine
end

