-- ==== Sys2Proof/Machine/Operands.lean ====
section
/-! DEFINITION. Reading the fields of a request body and naming the first field out of range (10.3, R176). -/

namespace Sys2Proof.Machine

open Sys2Proof

/-- The one-byte value at an offset of a body (10.3). -/
def u8At (body : Bytes) (offset : Nat) : Nat := (body.getD offset 0).toNat

/-- The two-byte value at an offset, high byte first (chapter 10). -/
def u16At (body : Bytes) (offset : Nat) : Nat := u8At body offset * 256 + u8At body (offset + 1)

/-- The signed two-byte value at an offset, in two's complement (chapter 10). -/
def s16At (body : Bytes) (offset : Nat) : Int :=
  if u16At body offset < 32768 then u16At body offset else (u16At body offset : Int) - 65536

/-- A value lies in lo..hi. -/
def within (lo hi v : Nat) : Bool := decide (lo ≤ v ∧ v ≤ hi)

/-- A field of a request: its number and whether its value is in range. -/
abbrev FieldCheck := Nat × Bool

/-- The first field whose value lies outside its range, in checking order (R1, R176). -/
def firstBad (fields : List FieldCheck) : Option Nat :=
  (fields.find? (fun f => !f.2)).map Prod.fst

/-- The line of a line code 0..3 (10.5). -/
def lineOf : Nat → Option LineId
  | 0 => some .a
  | 1 => some .b
  | 2 => some .c
  | 3 => some .d
  | _ => none

/-- The trigger field of a code (10.5). -/
def trigFieldOf : Nat → Option TrigField
  | 0 => some .speed
  | 1 => some .occ
  | 2 => some .count
  | 3 => some .dspeed
  | 4 => some .band
  | 5 => some .status
  | _ => none

/-- The relation of a code (10.5). -/
def relationOf : Nat → Option Relation
  | 0 => some .le
  | 1 => some .ge
  | 2 => some .eq
  | 3 => some .ne
  | _ => none

/-- The mode of a code (10.5). -/
def trigModeOf : Nat → Option TrigMode
  | 0 => some .a
  | 1 => some .aOrB
  | 2 => some .aAndB
  | 3 => some .aThenB
  | _ => none

/-- The source of a byte: 0 AGGREGATE, 1..5 the lane (10.3). -/
def sourceOf (v : Nat) : Option Source :=
  if v = 0 then some .aggregate else if v ≤ 5 then some (.lane v) else none

/-- The lanes a lane-set byte names: bit l-1 for lane l (10.5), rising. -/
def lanesOf (v : Byte) : List Nat :=
  (List.range 8).filterMap (fun i => if v.getLsbD i then some (i + 1) else none)

/-- The actions of an actions byte (10.3). -/
def actionsOf (v : Byte) : Actions := ⟨v.getLsbD 0, v.getLsbD 1, v.getLsbD 2, v.getLsbD 3⟩

/-- Lanes 1..N. -/
def lanesTo (n : Nat) : List Nat := (List.range n).map (· + 1)

end Sys2Proof.Machine
end

