-- ==== Sys2Proof/Machine/Ops.lean ====
section
/-! DEFINITION. The operations the meanings share: the panel lines, the reply FIFO, the report queue, the transmitter and
the taking of a request. -/

namespace Sys2Proof.Machine

open Sys2Proof

/-! ## Panel lines -/

def PerLine.get {α : Type} (p : PerLine α) : LineId → α
  | .a => p.a
  | .b => p.b
  | .c => p.c
  | .d => p.d

def PerLine.set {α : Type} (p : PerLine α) (l : LineId) (v : α) : PerLine α :=
  match l with
  | .a => { p with a := v }
  | .b => { p with b := v }
  | .c => { p with c := v }
  | .d => { p with d := v }

/-- The lines in the order A, B, C, D. -/
def lineIds : List LineId := [.a, .b, .c, .d]

def State.setLine (s : State) (l : LineId) (v : Line) : State := { s with lines := s.lines.set l v }

/-! ## Map -/

/-- The displayable set; empty while absent. -/
def State.displayable (s : State) : List Nat := s.speeds.getD []

/-- The corridor maximum: the largest member of the displayable set (00 Conventions). The set rises, so it is the last. -/
def State.corridorMax (s : State) : Nat := s.displayable.getLastD 0

/-- The record of a gantry of the map; none when the index is not below G or undefined. -/
def State.gantry? (s : State) (g : Nat) : Option GantryRec := (s.gantries[g]?).join

/-- The chainage of a gantry. -/
def State.chainage (s : State) (g : Nat) : Nat :=
  match s.gantry? g with
  | some r => r.chainage
  | none => 0

/-- "Rounded down into the displayable set" (00 Conventions): the largest member not above the value, if any. -/
def roundDown (set : List Nat) (v : Nat) : Option Nat := (set.filter (fun m => decide (m ≤ v))).max?

/-- The value brought into the set: rounded down, or the smallest member when it lies below it (R11, R56, R73, R86). -/
def roundInto (set : List Nat) (v : Nat) : Nat := (roundDown set v).getD (set.headD 0)

/-! ## Panels -/

/-- The record held for a gantry and panel. -/
def panelAt (panels : List PanelRec) (gantry panel : Nat) : Option PanelRec :=
  panels.find? (fun p => p.panel == ⟨gantry, panel⟩)

/-- The record held for a line and address (R125). -/
def panelOn (panels : List PanelRec) (line : LineId) (address : Nat) : Option PanelRec :=
  panels.find? (fun p => p.addr == ⟨line, address⟩)

/-- R67: every lane panel of the gantry is FAILED. -/
def darkAt (panels : List PanelRec) (gantry : Nat) : Bool :=
  (panels.filter (fun p => p.panel.gantry == gantry && p.panel.panel != 0)).all (fun p => p.health == .failed)

/-- The darkness of every gantry 0..G-1. -/
def State.darkness (s : State) : List Bool := (List.range s.params.gantryCount).map (darkAt s.panels)

/-- The entry of the aspect table for a panel. -/
def entryAt (aspects : List AspectEntry) (panel : PanelId) : Option AspectEntry :=
  aspects.find? (fun e => e.panel == panel)

/-! ## Counts that stop -/

/-- A discard count rises by one and stops at 65535 (R159, R160). -/
def countUp (n : Nat) : Nat := min (n + 1) Config.countCeiling

/-! ## Report queue (R165, R166) -/

/-- The report queue holds fewer than 32 reports. -/
def Link.hasRoom (l : Link) : Bool := decide (l.urgent.length + l.routine.length < Config.reportCapacity)

/-- A GANTRY_SHOWN is queued for the gantry. -/
def Link.shownQueued (l : Link) (gantry : Nat) : Bool := l.routine.contains (.gantryShown gantry)

/-- An urgent report: placed, or placed in the room of the oldest routine report, or dropped (R165). -/
def Link.placeUrgent (l : Link) (r : Report) : Link :=
  if l.hasRoom then { l with urgent := l.urgent ++ [r] }
  else
    match l.routine with
    | _ :: rest => { l with urgent := l.urgent ++ [r], routine := rest, reportsLost := true }
    | [] => { l with reportsLost := true }

/-- A routine report: placed, or dropped (R165). -/
def Link.placeRoutine (l : Link) (r : Report) : Link :=
  if l.hasRoom then { l with routine := l.routine ++ [r] } else { l with reportsLost := true }

/-- A change asks for a GANTRY_SHOWN: nothing is placed while one is queued for the gantry (R166). -/
def Link.askShown (l : Link) (gantry : Nat) : Link :=
  if l.shownQueued gantry then l else l.placeRoutine (.gantryShown gantry)

/-- The placing of a report in the class its kind fixes (R165, R166). -/
def Link.place (l : Link) (r : Report) : Link :=
  match r with
  | .gantryShown g => l.askShown g
  | .warningState .. => l.placeRoutine r
  | .restart .. | .triggerFired .. | .panelHealth .. | .closureState .. | .lineState .. | .historyFrozen .. =>
    l.placeUrgent r

def State.report (s : State) (r : Report) : State := { s with link := s.link.place r }

/-- Several reports, in the order made. -/
def State.reports (s : State) (rs : List Report) : State := { s with link := rs.foldl Link.place s.link }

/-! ## Reply FIFO and transmitter (R162, R163, R164) -/

/-- The first sections of a reply, each whole, while they fit in the room. -/
def wholeSections (room : Nat) : List Bytes → Bytes
  | [] => []
  | x :: rest => if x.length ≤ room then x ++ wholeSections (room - x.length) rest else []

/-- The sections of a reply as a frame carries them behind the result code: all of them where they fit the 240 bytes
(R173). Where they do not, those that fit stand, in order and whole, and only what follows them is free (Config.oversizeBody;
notes/assumptions/3.md). -/
def carriedSections (sections : List Bytes) : Bytes :=
  let room := Config.maxBody - 1
  if sections.flatten.length ≤ room then sections.flatten
  else
    let kept := wholeSections room sections
    kept ++ (Config.oversizeBody sections.flatten).take (room - kept.length)

/-- The body a reply is placed with: the result code (R161, R167), then its items as a frame carries them. -/
def carriedBody (body : Bytes) : Bytes := body.take 1 ++ carriedSections [body.drop 1]

/-- A reply is placed at the end of the FIFO (R161). -/
def Link.placeReply (l : Link) (f : Frame) : Link := { l with replies := l.replies ++ [f] }

/-- A frame starts: it carries OVERRUN, and a report carries REPORTS_LOST too; what is carried is cleared (R164). -/
def Link.startReply (l : Link) (f : Frame) (rest : List Frame) : Link :=
  { l with replies := rest, tx := some ⟨f, l.overrun, false⟩, overrun := false }

def Link.startReport (l : Link) (f : Frame) : Link :=
  { l with tx := some ⟨f, l.overrun, l.reportsLost⟩, overrun := false, reportsLost := false }

/-- The free transmitter's choice: the oldest reply, else the oldest urgent report, else the oldest routine report
(R163); no report once RESET has been acted on (R170). -/
def Link.choose (now : Clock) (panels : List PanelRec) (l : Link) : Link :=
  match l.replies with
  | f :: rest => l.startReply f rest
  | [] =>
    if l.resetPending then l
    else
      match l.urgent with
      | r :: rest => ({ l with urgent := rest }).startReport (r.frame now panels)
      | [] =>
        match l.routine with
        | r :: rest => ({ l with routine := rest }).startReport (r.frame now panels)
        | [] => l

/-- The transmitter's choice at the end of an event (R163): made while it is free; nothing is sent while NRST is low (R17). -/
def State.transmit (s : State) : State :=
  if s.nrstLow || s.link.tx.isSome then s
  else { s with link := s.link.choose s.clock s.panels }

/-! ## Requests (R160, R161) -/

/-- What a block answers: the state after its effects and the reply body, result code first (R167). -/
abbrev Answer := State × Bytes

/-- A refusal has no effect and carries its code alone. -/
def refuse (r : Result) (s : State) : Answer := (s, [r.code])

/-- BAD_VALUE carries the field number (R167). -/
def badValue (field : Nat) (s : State) : Answer := (s, [Result.badValue.code, byteOf field])

/-- OK and the items that follow it. -/
def accept (items : Bytes) (s : State) : Answer := (s, Result.ok.code :: items)

/-- The receiver discards the frame it is assembling, counts it and hunts (R159). -/
def State.discardFrame (s : State) : State :=
  { s with link := { s.link with rx := .hunt, frameDiscards := countUp s.link.frameDiscards } }

/-- A good frame has arrived whole. While NRST is low nothing is received (R156). The receiver hunts again (R157). After
RESET has been acted on the frame is discarded with no reply, no OVERRUN and no count (R170). At a full reply FIFO the
request is discarded (R160). Otherwise the block acts and the reply is placed, and a free transmitter makes its choice
(R161, R163). A body above 240 is a length above 240 (R159). -/
def State.arrive (s : State) (body : Bytes) (act : State → State × Frame) : State :=
  if s.nrstLow then s
  else if Config.maxBody < body.length then s.discardFrame
  else
    let s := { s with link := { s.link with rx := .hunt } }
    if s.link.resetPending then s
    else if Config.replyCapacity ≤ s.link.replies.length then
      { s with link := { s.link with overrun := true, requestDiscards := countUp s.link.requestDiscards } }
    else
      let r := act s
      State.transmit { r.1 with link := r.1.link.placeReply r.2 }

/-- A request of a known kind: the length test, then the owning block's effect, then the reply, of the request's kind
plus 0x80 and with its tag (R161). -/
def State.take (s : State) (k : RequestKind) (tag : Byte) (body : Bytes) (effect : Bytes → State → Answer) : State :=
  s.arrive body (fun s =>
    let r := if lengthFits k body then effect body s else refuse .badLength s
    (r.1, ⟨k.code + 0x80, tag, carriedBody r.2⟩))

end Sys2Proof.Machine
end

