-- ==== Sys2Proof/Machine/Plan.lean ====
section
/-! DEFINITION. The speed plan (chapter 4): demand, rounding, target propagation, rise hold, final propagation. -/

namespace Sys2Proof.Machine

open Sys2Proof

/-! ## Stage 1: demand (R71, R72) -/

/-- R90: a closure is active in REQUESTED, ARROWS, DWELL and CLOSED. -/
def Closure.active (c : Closure) : Bool :=
  match c.state with
  | .requested | .arrows | .dwell | .closed => true
  | .releasing => false

/-- The gantries F..L of a closure. -/
def Closure.covers (c : Closure) (gantry : Nat) : Bool := decide (c.first ≤ gantry ∧ gantry ≤ c.last)

/-- R71: a closure's cap is a demand over its taper list and its range while it is active. -/
def Closure.caps (c : Closure) (gantry : Nat) : Bool := c.active && (c.taper.contains gantry || c.covers gantry)

/-- R37: the limit of a band of the table. -/
def bandLimit (bands : List Band) (band : Nat) : Option Nat := (bands[band - 1]?).map (·.limit)

/-- The congestion demand of a band: the limit of the band, or the corridor maximum in band 0 (R37). -/
def congestionDemand (bands : List Band) (maximum band : Nat) : Nat :=
  if band = 0 then maximum else (bandLimit bands band).getD maximum

/-- The traffic record of a gantry; fresh where none is held (R40). -/
def State.trafficAt (s : State) (g : Nat) : TrafficRec := s.traffic.getD g (TrafficRec.fresh s.params.laneCount)

/-- The warning at a gantry (R56). -/
def warningAt (ws : List Warning) (g : Nat) : Option Warning := ws.find? (fun w => w.gantry == g)

/-- The demand sources present at a gantry, in the order of R72; closures stand in rising id. `initial` is the initial
limit of START's run (R70). The list is never empty. -/
def State.demandSources (s : State) (initial : Option Nat) (g : Nat) : List (Binding × Nat) :=
  (if s.operatorCap = 0 then [] else [(.operator, s.operatorCap)])
  ++ (s.closures.filter (·.caps g)).map (fun c => (.closure c.id, c.requestedCap))
  ++ ((warningAt s.warnings g).map (fun w => (Binding.warning, w.requestedCap))).toList
  ++ (if (s.trafficAt g).band = 0 then []
      else [(.congestion, congestionDemand (s.bands.getD []) s.corridorMax (s.trafficAt g).band)])
  ++ (initial.map (fun v => (Binding.initial, v))).toList
  ++ [(.maximum, s.corridorMax)]

/-- The lowest of the sources' values (R71). -/
def lowest : List (Binding × Nat) → Nat
  | [] => 0
  | [x] => x.2
  | x :: y :: rest => min x.2 (lowest (y :: rest))

/-- The binding source: the first whose value equals the demand (R72). -/
def bindingOf (sources : List (Binding × Nat)) : Binding :=
  match sources.find? (fun x => x.2 == lowest sources) with
  | some x => x.1
  | none => .maximum

/-! ## Stages 3 and 5: propagation (R74, R77, R80) -/

/-- The bound a gantry takes from the value of its h: the largest member of the set not above it plus max_drop (R74). That
member exists whenever the value is a member (R74); were there none, the value itself bounds. -/
def boundFrom (set : List Nat) (maxDrop value : Nat) : Nat := (roundDown set (value + maxDrop)).getD value

/-- A sweep from the last gantry up to gantry 0. Each entry is a gantry's own value and whether it is dark. The second
part is the value of the nearest speed-signing gantry among those swept, for the gantry upstream of them; a dark gantry is
passed over (R80). -/
def sweepFrom (set : List Nat) (maxDrop : Nat) : List (Nat × Bool) → List Nat × Option Nat
  | [] => ([], none)
  | (own, dark) :: rest =>
    let below := sweepFrom set maxDrop rest
    let value :=
      match below.2 with
      | none => own
      | some h => min own (boundFrom set maxDrop h)
    (value :: below.1, if dark then below.2 else some value)

def sweep (set : List Nat) (maxDrop : Nat) (gantries : List (Nat × Bool)) : List Nat :=
  (sweepFrom set maxDrop gantries).1

/-! ## Stage 4: candidate and rise hold (R75) -/

/-- The next member of the set above a value. -/
def nextAbove (set : List Nat) (v : Nat) : Nat := (set.filter (fun m => decide (v < m))).min?.getD v

/-- The candidate and the rise-wait of one gantry (R75). -/
def candidate (set : List Nat) (holdUp : Nat) (timed : Bool) (target shown riseWait : Nat) : Nat × Nat :=
  if target < shown then (target, 0)
  else if target = shown then (shown, 0)
  else if timed then
    if min (riseWait + 1) holdUp = holdUp then (nextAbove set shown, holdUp) else (shown, riseWait + 1)
  else (shown, riseWait)

/-! ## A run (R68) -/

/-- The plan record a gantry has before a run; every run overwrites all but the shown limit and the rise-wait. -/
def PlanRec.from (shown : Nat) : PlanRec := ⟨shown, .maximum, shown, false, shown, shown, 0, .plan⟩

def State.planAt (s : State) (g : Nat) : PlanRec := s.plan.getD g (PlanRec.from s.corridorMax)

/-- The record a run leaves at a gantry, from its sources, its target, its candidate and its new shown limit. The rise-wait
becomes 0 where the shown limit changed (R77); the speed cause is OPERATOR where the operator cap binds and the shown limit
equals the rounded demand (R72). -/
def finishRec (set : List Nat) (old : PlanRec) (sources : List (Binding × Nat)) (target waited shown : Nat) : PlanRec where
  demand := lowest sources
  binding := bindingOf sources
  rounded := roundInto set (lowest sources)
  clamped := (roundDown set (lowest sources)).isNone
  target := target
  shown := shown
  riseWait := if shown = old.shown then waited else 0
  cause := if bindingOf sources = .operator ∧ shown = roundInto set (lowest sources) then .operator else .plan

/-- The targets of Stage 3. -/
def State.targets (s : State) (initial : Option Nat) : List Nat :=
  sweep s.displayable s.params.maxDrop
    ((List.range s.params.gantryCount).map
      (fun g => (roundInto s.displayable (lowest (s.demandSources initial g)), darkAt s.panels g)))

/-- The candidate and rise-wait of every gantry after Stage 4. -/
def State.candidates (s : State) (timed : Bool) (targets : List Nat) : List (Nat × Nat) :=
  (List.range s.params.gantryCount).map
    (fun g => candidate s.displayable s.params.holdUp timed (targets.getD g 0) (s.planAt g).shown (s.planAt g).riseWait)

/-- The shown limits of Stage 5. -/
def State.shownLimits (s : State) (candidates : List (Nat × Nat)) : List Nat :=
  sweep s.displayable s.params.maxDrop
    ((List.range s.params.gantryCount).map (fun g => ((candidates.getD g (0, 0)).1, darkAt s.panels g)))

/-- One computation of the plan over all gantries, timed or event (R65, R66, R68). -/
def State.planRun (s : State) (timed : Bool) (initial : Option Nat) : List PlanRec :=
  let targets := s.targets initial
  let candidates := s.candidates timed targets
  let shown := s.shownLimits candidates
  (List.range s.params.gantryCount).map
    (fun g => finishRec s.displayable (s.planAt g) (s.demandSources initial g) (targets.getD g 0)
      (candidates.getD g (0, 0)).2 (shown.getD g 0))

def State.runPlan (s : State) (timed : Bool) (initial : Option Nat) : State :=
  { s with plan := s.planRun timed initial }

end Sys2Proof.Machine
end

