-- ==== Sys2Proof/Machine/Aspects.lean ====
section
/-! DEFINITION. Aspect resolution (chapter 6): the desired aspect of every panel, recomputation, the restrictiveness order,
and the pending entries that changes place (R126). -/

namespace Sys2Proof.Machine

open Sys2Proof

/-! ## Sources of a lane panel (R112, R113) -/

/-- R83, R113: SPEED of the shown limit, or BLANK at the corridor maximum. -/
def speedAspect (maximum shown : Nat) : Aspect := if shown = maximum then .blank else .speed shown

def SpeedCause.cause : SpeedCause → Cause
  | .plan => .plan
  | .operator => .operator

def Arrow.aspect : Arrow → Aspect
  | .near => .arrowNear
  | .off => .arrowOff

/-- The cross map's entry at a gantry and lane (R92). -/
def crossAt (m : List CrossEntry) (g l : Nat) : Option CrossEntry := m.find? (fun e => e.gantry == g && e.lane == l)

/-- The arrow map's entry at a gantry and lane (R92). -/
def arrowAt (m : List ArrowEntry) (g l : Nat) : Option ArrowEntry := m.find? (fun e => e.gantry == g && e.lane == l)

/-- Orders 2 to 4 of R112. -/
def State.laneSource (s : State) (g l : Nat) : Aspect × Cause :=
  match crossAt s.crossMap g l with
  | some e => (.cross, .closure e.id)
  | none =>
    match arrowAt s.arrowMap g l with
    | some e => (e.arrow.aspect, .closure e.id)
    | none => (speedAspect s.corridorMax (s.planAt g).shown, (s.planAt g).cause.cause)

/-! ## Sources of a message panel (R115 to R117) -/

/-- R93: a closure holds duties, and is announced (R115), in ARROWS, DWELL and CLOSED. -/
def Closure.established (c : Closure) : Bool :=
  match c.state with
  | .arrows | .dwell | .closed => true
  | .requested | .releasing => false

/-- The distance from gantry m to gantry g lies in 0..legend_reach (R116, R117). -/
def State.reaches (s : State) (m g : Nat) : Bool :=
  decide (s.chainage m ≤ s.chainage g ∧ s.chainage g - s.chainage m ≤ s.params.legendReach)

/-- R116: a closure stands ahead of the message panel at m. -/
def State.closureAhead (s : State) (m : Nat) (c : Closure) : Bool := s.reaches m c.first || c.taper.contains m

/-- The ids of the announced closures ahead of m. -/
def State.announced (s : State) (m : Nat) (fullOnly : Bool) : List Nat :=
  (s.closures.filter (fun c => c.established && (!fullOnly || c.full) && s.closureAhead m c)).map (·.id)

/-- R117: the band of m, or of m+1 where m+1 is below G, is at least congestion_legend_band. -/
def State.congested (s : State) (m : Nat) : Bool :=
  decide (s.params.congestionBand ≤ (s.trafficAt m).band)
  || (decide (m + 1 < s.params.gantryCount) && decide (s.params.congestionBand ≤ (s.trafficAt (m + 1)).band))

/-- The operator legend of a gantry (R118). -/
def State.legendAt (s : State) (g : Nat) : Nat := s.legends.getD g 0

/-- The six positions of R115. -/
def State.messageSource (s : State) (m : Nat) : Aspect × Cause :=
  match (s.announced m true).min? with
  | some id => (.message 4 true, .closure id)
  | none =>
    match (s.announced m false).min? with
    | some id => (.message 3 true, .closure id)
    | none =>
      if s.warnings.any (fun w => s.reaches m w.gantry) then (.message 1 true, .warning)
      else if s.legendAt m ≠ 0 then (.message (s.legendAt m) false, .operator)
      else if s.congested m then (.message 2 false, .plan)
      else (.message 0 false, .plan)

/-- What a panel's sources ask for; panel 0 is the message panel. -/
def State.sourceOf (s : State) (p : PanelId) : Aspect × Cause :=
  if p.panel = 0 then s.messageSource p.gantry else s.laneSource p.gantry p.panel

/-! ## Recomputation (R110, R114) -/

/-- R114: a FAILED panel is dark, lanterns off. -/
def darkAspect (panel : Nat) : Aspect := if panel = 0 then .message 0 false else .blank

/-- The panel is FAILED. -/
def State.panelFailed (s : State) (p : PanelId) : Bool :=
  match panelAt s.panels p.gantry p.panel with
  | some r => r.health == .failed
  | none => false

/-- An entry recomputed from its inputs as they stand. A panel leaving FAILED takes cause RECOVERED, which stays until the
desired aspect changes (R114). -/
def State.newEntry (s : State) (old : AspectEntry) : AspectEntry :=
  if s.panelFailed old.panel then ⟨old.panel, darkAspect old.panel.panel, .failed⟩
  else if old.cause = .failed then ⟨old.panel, (s.sourceOf old.panel).1, .recovered⟩
  else if old.cause = .recovered ∧ (s.sourceOf old.panel).1 = old.desired then ⟨old.panel, old.desired, .recovered⟩
  else ⟨old.panel, (s.sourceOf old.panel).1, (s.sourceOf old.panel).2⟩

/-- An entry as START computes it (R109). -/
def State.freshEntry (s : State) (p : PanelId) : AspectEntry := ⟨p, (s.sourceOf p).1, (s.sourceOf p).2⟩

/-! ## Restrictiveness (R121, R122) -/

/-- The place of a lane aspect's form in R121's order, 0 the most restrictive. -/
def laneRank : Aspect → Nat
  | .cross => 0
  | .arrowNear | .arrowOff => 1
  | .speed _ => 2
  | .blank => 3
  | .message _ _ => 4

/-- The position of a legend in R122's list. -/
def legendPosition : Nat → Nat
  | 4 => 1
  | 3 => 2
  | 1 => 3
  | 2 => 5
  | 0 => 6
  | _ => 4

/-- An aspect is more restrictive than another of its kind (R121, R122). -/
def Aspect.moreRestrictive : Aspect → Aspect → Bool
  | .message l on, .message l' on' =>
    if on = on' then decide (legendPosition l < legendPosition l') else on
  | .speed v, .speed v' => decide (v < v')
  | x, y => decide (laneRank x < laneRank y)

/-! ## Pending entries (R126, R127) -/

/-- R126: a change calls for SAFETY when nothing is confirmed, or the new aspect is more restrictive than the confirmed. -/
def callsFor (confirmed : Option Aspect) (desired : Aspect) : EntryClass :=
  match confirmed with
  | none => .safety
  | some c => if desired.moreRestrictive c then .safety else .routine

/-- The address has a pending entry. -/
def hasEntry (queue : List PendEntry) (address : Nat) : Bool := queue.any (fun e => e.address == address)

/-- R126, R127: the entry stays in its place and may become SAFETY; a new one goes to the end. -/
def placeEntry (queue : List PendEntry) (address : Nat) (cls : EntryClass) : List PendEntry :=
  if hasEntry queue address then
    queue.map (fun e => if e.address = address ∧ cls = .safety then { e with cls := .safety } else e)
  else queue ++ [⟨address, cls⟩]

/-- A placing of an entry on a panel's line. -/
def placeOn (lines : PerLine Line) (addr : PanelAddr) (cls : EntryClass) : PerLine Line :=
  lines.set addr.line { lines.get addr.line with queue := placeEntry (lines.get addr.line).queue addr.address cls }

/-- A desired-aspect change reaches the line of its panel (R126). -/
def handOn (panels : List PanelRec) (lines : PerLine Line) (e : AspectEntry) : PerLine Line :=
  match panelAt panels e.panel.gantry e.panel.panel with
  | some r => placeOn lines r.addr (callsFor r.confirmed e.desired)
  | none => lines

/-- Entries in the order R111 hands them on: the most downstream gantry first, within a gantry in table order, which is
lane 1 to N and then the message panel. -/
def downstreamFirst (gantryCount : Nat) (es : List AspectEntry) : List AspectEntry :=
  (List.range gantryCount).reverse.flatMap (fun g => es.filter (fun e => e.panel.gantry == g))

/-- The entries whose desired aspect the recomputation changed. -/
def changedEntries (old new : List AspectEntry) : List AspectEntry :=
  ((old.zip new).filter (fun x => x.1.desired != x.2.desired)).map Prod.snd

/-- The table recomputes once and hands on what changed (R110, R111). Recomputing every entry gives what recomputing the
entries whose inputs changed gives: an entry whose inputs and aspect stand is not changed by it. -/
def State.resolve (s : State) : State :=
  { s with
    aspects := s.aspects.map s.newEntry
    lines := (downstreamFirst s.params.gantryCount (changedEntries s.aspects (s.aspects.map s.newEntry))).foldl
      (handOn s.panels) s.lines }

end Sys2Proof.Machine
end

