-- ==== Sys2Proof/Machine/Closures.lean ====
section
/-! DEFINITION. The closure unit (chapter 5): the closed set, arrows, duties, gates, lead panels, taper extension, the
maps, and the four requests' effects. -/

namespace Sys2Proof.Machine

open Sys2Proof

/-! ## The closed set and FULL (R90) -/

/-- The lane is in the closed set at a gantry. -/
def inClosedSet (cs : List Closure) (gantry lane : Nat) : Bool :=
  cs.any (fun c => c.active && c.covers gantry && c.lanes.contains lane)

/-- The FULL mark of every active closure recomputed; the marks of a closure in RELEASING stand (R101). -/
def recomputeFull (laneCount : Nat) (cs : List Closure) : List Closure :=
  cs.map (fun c => if c.active then { c with full := (lanesTo laneCount).all (inClosedSet cs c.first) } else c)

/-! ## Arrows (R91, R92) -/

/-- R91: the lane is crossed at a gantry by another closure. -/
def crossedByOther (cs : List Closure) (c : Closure) (gantry lane : Nat) : Bool :=
  cs.any (fun d => d.id != c.id && d.state == .closed && d.covers gantry && d.lanes.contains lane)

/-- R91: the exit lanes of a closure at a taper gantry, rising. -/
def exitLanes (laneCount : Nat) (cs : List Closure) (c : Closure) (t : Nat) : List Nat :=
  (lanesTo laneCount).filter (fun l => !inClosedSet cs c.first l && !crossedByOther cs c t l)

/-- How far apart two lanes stand. -/
def laneDistance (x y : Nat) : Nat := (x - y) + (y - x)

/-- The exit lane nearest to a lane; of two equally near, the one toward the nearside (R91). The exits rise. -/
def nearestExit (lane : Nat) : List Nat → Option Nat
  | [] => none
  | e :: rest =>
    match nearestExit lane rest with
    | none => some e
    | some f => if laneDistance e lane ≤ laneDistance f lane then some e else some f

/-- R91: toward a lane numbered below, ARROW_NEAR; above, ARROW_OFF. -/
def arrowToward (lane exit : Nat) : Arrow := if exit < lane then .near else .off

/-- The kind of the duty at a taper gantry and lane (R91, R93). -/
def dutyKind (laneCount : Nat) (cs : List Closure) (c : Closure) (t l : Nat) : DutyKind :=
  if crossedByOther cs c t l then .none
  else if (exitLanes laneCount cs c t).isEmpty then .capped
  else .arrow

/-- The arrow a closure asks for at a gantry and lane (R91). -/
def asksArrow (laneCount : Nat) (cs : List Closure) (t l : Nat) (c : Closure) : Option Arrow :=
  if c.established && c.taper.contains t && c.lanes.contains l && (dutyKind laneCount cs c t l == .arrow) then
    (nearestExit l (exitLanes laneCount cs c t)).map (arrowToward l)
  else none

/-- R92: of two closures asking, the smaller F decides, and with the same F the smaller id. -/
def decides (c d : Closure) : Bool := decide (c.first < d.first) || (decide (c.first = d.first) && decide (c.id ≤ d.id))

/-- The closure that decides among those asking. -/
def decider : List Closure → Option Closure
  | [] => none
  | c :: rest =>
    match decider rest with
    | none => some c
    | some d => if decides c d then some c else some d

/-- The arrow map's entry for a gantry and lane, if any (R92). -/
def arrowEntry (laneCount : Nat) (cs : List Closure) (t l : Nat) : Option ArrowEntry :=
  match decider (cs.filter (fun c => (asksArrow laneCount cs t l c).isSome)) with
  | none => none
  | some c => (asksArrow laneCount cs t l c).map (fun a => ⟨t, l, a, c.id⟩)

/-- The cross map's entry for a gantry and lane, if any: the smallest id of a closure in CLOSED there (R92). -/
def crossEntry (cs : List Closure) (g l : Nat) : Option CrossEntry :=
  (((cs.filter (fun c => c.state == .closed && c.covers g && c.lanes.contains l)).map (·.id)).min?).map
    (fun id => ⟨g, l, id⟩)

/-- Every gantry and lane. -/
def positions (gantryCount laneCount : Nat) : List (Nat × Nat) :=
  (List.range gantryCount).flatMap (fun g => (lanesTo laneCount).map (fun l => (g, l)))

def arrowMapOf (gantryCount laneCount : Nat) (cs : List Closure) : List ArrowEntry :=
  (positions gantryCount laneCount).filterMap (fun p => arrowEntry laneCount cs p.1 p.2)

def crossMapOf (gantryCount laneCount : Nat) (cs : List Closure) : List CrossEntry :=
  (positions gantryCount laneCount).filterMap (fun p => crossEntry cs p.1 p.2)

/-! ## What the closure unit reads (R93, R94, R95) -/

/-- What the closure unit reads besides its own table: the map's size, the corridor maximum, the taper limit's clock, the
panel records, and the table the closed set and the crossings are taken from. -/
structure ClosureView where
  laneCount : Nat
  maximum : Nat
  clock : Clock
  panels : List PanelRec
  table : List Closure

def State.closureView (s : State) (table : List Closure) : ClosureView :=
  ⟨s.params.laneCount, s.corridorMax, s.clock, s.panels, table⟩

/-- A lane panel is FAILED. -/
def laneFailed (panels : List PanelRec) (g l : Nat) : Bool :=
  match panelAt panels g l with
  | some r => r.health == .failed
  | none => false

/-- R94, R93: SPEED at or below the cap, BLANK when the cap is the corridor maximum, an arrow or a cross. -/
def slowEnough (maximum cap : Nat) : Aspect → Bool
  | .speed v => decide (v ≤ cap)
  | .blank => cap == maximum
  | .arrowNear | .arrowOff | .cross => true
  | .message _ _ => false

/-- A confirmed aspect meets a duty kind (R93). -/
def meetsKind (maximum cap : Nat) (kind : DutyKind) (a : Aspect) : Bool :=
  match kind with
  | .arrow => a == .arrowNear || a == .arrowOff
  | .capped => slowEnough maximum cap a
  | .none => true

/-- R93: the panel is FAILED or its confirmed aspect meets the kind; a NONE duty is always settled. -/
def settledNow (v : ClosureView) (cap : Nat) (kind : DutyKind) (g l : Nat) : Bool :=
  kind == .none ||
    match panelAt v.panels g l with
    | some r =>
      r.health == .failed ||
        (match r.confirmed with
         | some a => meetsKind v.maximum cap kind a
         | none => false)
    | none => false

/-- A duty tested: kind and mark afresh; in CLOSED a set mark stays set (R93). -/
def retest (v : ClosureView) (c : Closure) (d : Duty) : Duty :=
  let kind := dutyKind v.laneCount v.table c d.gantry d.lane
  let now := settledNow v c.cap kind d.gantry d.lane
  { d with kind := kind, settled := if c.state = .closed then d.settled || now else now }

/-- The duties of a closure tested (R93). -/
def retestDuties (v : ClosureView) (c : Closure) : Closure :=
  if c.established then { c with duties := c.duties.map (retest v c) } else c

/-- New duties at a taper gantry, one per lane of the lane set, in rising lane (R93). DESIGN CHOICE: the order of the duty list,
by taper gantry in order of joining and within it by rising lane (notes/assumptions/30.md). -/
def dutiesAt (v : ClosureView) (c : Closure) (t : Nat) : List Duty :=
  c.lanes.map (fun l => retest v c ⟨t, l, .none, false⟩)

/-- R94: every lane panel at every taper gantry is FAILED or slow enough. -/
def speedGate (v : ClosureView) (c : Closure) : Bool :=
  c.taper.all (fun t => (lanesTo v.laneCount).all (fun l =>
    match panelAt v.panels t l with
    | some r =>
      r.health == .failed ||
        (match r.confirmed with
         | some a => slowEnough v.maximum c.cap a
         | none => false)
    | none => false))

/-- Every duty is settled. -/
def Closure.allSettled (c : Closure) : Bool := c.duties.all (·.settled)

/-- R95. -/
def arrowGate (c : Closure) : Bool := c.allSettled && !c.taperBlocked

/-! ## What a closure's work leaves -/

/-- A report of an event that leaves the state (R106). -/
def markReport (v : ClosureView) (e : ClosureEvent) (c : Closure) : Report :=
  .closureState v.clock e c.state (some c.state) c

/-- A report of a transition between held states (R106). -/
def stateReport (v : ClosureView) (before : ClosureState) (c : Closure) : Report :=
  .closureState v.clock .state before (some c.state) c

/-- What a closure's work leaves: the record and the reports made so far, in the order they occur (R106). -/
abbrev Worked := Closure × List Report

/-- R96: a closure in DWELL returns to ARROWS, and reports it as it happens. -/
def returnToArrows (v : ClosureView) (w : Worked) : Worked :=
  if w.1.state = .dwell then
    ({ w.1 with state := .arrows }, w.2 ++ [stateReport v .dwell { w.1 with state := .arrows }])
  else w

/-- The duties tested; a closure in DWELL that then holds an unsettled one returns to ARROWS at once (R93, R96). -/
def testDuties (v : ClosureView) (c : Closure) : Worked :=
  if (retestDuties v c).allSettled then (retestDuties v c, []) else returnToArrows v (retestDuties v c, [])

/-! ## Lead panels and taper extension (R99 to R101) -/

/-- R99: the gantry of the lead panel of a lane: the highest-numbered taper gantry whose panel is not FAILED. -/
def leadGantry (panels : List PanelRec) (c : Closure) (l : Nat) : Option Nat :=
  (c.taper.filter (fun t => !laneFailed panels t l)).max?

/-- Every lane of the lane set has a lead panel. -/
def allLead (panels : List PanelRec) (c : Closure) : Bool := c.lanes.all (fun l => (leadGantry panels c l).isSome)

/-- The most upstream gantry of the taper list. -/
def Closure.head (c : Closure) : Nat := (c.taper.min?).getD 0

/-- R100: the gantry immediately upstream joins; its duties are made where the closure holds duties. -/
def joinTaper (v : ClosureView) (c : Closure) : Closure :=
  { c with
    taper := c.taper ++ [c.head - 1]
    duties := if c.established then c.duties ++ dutiesAt v c (c.head - 1) else c.duties }

/-- R100: extension, repeated until every lane has a lead panel, the list holds 5 gantries, or gantry 0 has joined. The
first join returns a closure in DWELL to ARROWS (R96, R100; notes/assumptions/12.md). -/
def extendTaper (v : ClosureView) : Nat → Worked → Worked
  | 0, w => w
  | n + 1, w =>
    if allLead v.panels w.1 then w
    else if w.1.taper.length < Config.taperCapacity ∧ w.1.head ≠ 0 then
      extendTaper v n (returnToArrows v (joinTaper v w.1, w.2))
    else w

/-- R99: every lane has a lead panel again: TAPER_BLOCKED and TAPER_LOST clear. -/
def clearMarks (v : ClosureView) (c : Closure) : Worked :=
  let c1 := { c with taperBlocked := false }
  let c2 := { c1 with taperLost := false }
  (c2, (if c.taperBlocked then [markReport v (.markCleared .taperBlocked) c1] else [])
    ++ (if c.taperLost then [markReport v (.markCleared .taperLost) c2] else []))

/-- R101: a lane has no lead panel and no extension is possible. -/
def setMarks (v : ClosureView) (c : Closure) : Worked :=
  if c.state = .closed then
    if c.taperLost then (c, [])
    else ({ c with taperLost := true }, [markReport v (.markSet .taperLost) { c with taperLost := true }])
  else
    if c.taperBlocked then (c, [])
    else ({ c with taperBlocked := true }, [markReport v (.markSet .taperBlocked) { c with taperBlocked := true }])

/-- The marks after the extension (R99, R101). -/
def leadMarks (v : ClosureView) (c : Closure) : Worked :=
  if allLead v.panels c then clearMarks v c else setMarks v c

/-- A further part of a closure's work: its reports follow those made so far. -/
def Worked.andThen (w : Worked) (part : Closure → Worked) : Worked := ((part w.1).1, w.2 ++ (part w.1).2)

/-- The lead-panel check of an active closure: extension, then the marks; TAPER_BLOCKED set in DWELL returns the closure to
ARROWS, behind the report of the mark (R99 to R101). -/
def checkLead (v : ClosureView) (c : Closure) : Worked :=
  if c.active then
    let w := (extendTaper v Config.taperCapacity (c, [])).andThen (leadMarks v)
    if w.1.taperBlocked then returnToArrows v w else w
  else (c, [])

/-! ## Gates (R94, R95) -/

/-- R94: a closure in REQUESTED whose speed gate holds enters ARROWS and makes its duties (R93). -/
def enterArrows (v : ClosureView) (c : Closure) : Worked :=
  if c.state = .requested ∧ speedGate v c then
    let c := { c with state := .arrows }
    let c := { c with duties := c.taper.flatMap (dutiesAt v c) }
    (c, [stateReport v .requested c])
  else (c, [])

/-- R95: a closure in ARROWS whose arrow gate holds enters DWELL; the entry time is the corridor clock. -/
def enterDwell (v : ClosureView) (c : Closure) : Worked :=
  if c.state = .arrows ∧ arrowGate c then
    let c := { c with state := .dwell, dwellEntry := some v.clock }
    (c, [stateReport v .arrows c])
  else (c, [])

/-- The transition checks of a closure: one transition may satisfy the next gate (5.5). -/
def passGates (v : ClosureView) (c : Closure) : Worked := (enterArrows v c).andThen (enterDwell v)

/-! ## The work of one event -/

/-- What one event's work makes of a record: the duty tests, the lead-panel check, the gates. -/
def workClosure (v : ClosureView) (c : Closure) : Closure := (passGates v (checkLead v (testDuties v c).1).1).1

/-- One pass over the table, in rising id (DESIGN CHOICE, notes/assumptions/8.md). -/
def runPass (part : Closure → Worked) (cs : List Closure) : List Closure × List Report :=
  (cs.map (fun c => (part c).1), cs.flatMap (fun c => (part c).2))

/-- The work of one event on the whole table: the duty tests of every closure, then every lead-panel check, then every
transition check (R89), the reports in that order. -/
def workTable (v : ClosureView) (cs : List Closure) : List Closure × List Report :=
  let tested := runPass (testDuties v) cs
  let led := runPass (checkLead v) tested.1
  let passed := runPass (passGates v) led.1
  (passed.1, tested.2 ++ led.2 ++ passed.2)

/-- The maps recomputed from the table (R92). -/
def State.remap (s : State) : State :=
  { s with
    arrowMap := arrowMapOf s.params.gantryCount s.params.laneCount s.closures
    crossMap := crossMapOf s.params.gantryCount s.params.laneCount s.closures }

/-- The work of the closure table, and the maps after it. -/
def State.workClosures (s : State) : State :=
  State.remap (State.reports { s with closures := (workTable (s.closureView s.closures) s.closures).1 }
    (workTable (s.closureView s.closures) s.closures).2)

/-- The taper lists of the table: a gantry joining one is a change of demand input (R66, R100). -/
def tapersOf (cs : List Closure) : List (List Nat) := cs.map (·.taper)

/-! ## The end of a release (R104, R105) -/

/-- R104: a lane panel is FAILED or confirms its desired aspect. -/
def panelSettled (s : State) (g l : Nat) : Bool :=
  match panelAt s.panels g l with
  | some r =>
    r.health == .failed ||
      (match r.confirmed, entryAt s.aspects ⟨g, l⟩ with
       | some a, some e => a == e.desired
       | _, _ => false)
  | none => false

/-- R104: a closure in RELEASING whose road has settled. -/
def released (s : State) (c : Closure) : Bool :=
  (c.state == .releasing) &&
    ((List.range s.params.gantryCount).filter (fun g => c.taper.contains g || c.covers g)).all
      (fun g => (lanesTo s.params.laneCount).all (fun l => panelSettled s g l))

/-- The report of a record's ending (R105). -/
def endedReport (clock : Clock) (c : Closure) : Report := .closureState clock .state c.state none c

/-- The records that reach ENDED report it and are freed (R105). -/
def State.endReleased (s : State) : State :=
  State.reports { s with closures := s.closures.filter (fun c => !released s c) }
    ((s.closures.filter (released s)).map (endedReport s.clock))

/-! ## What follows a change (R66, R68, R110, R111) -/

/-- The event run where demand or darkness changed, then the aspect table once, then the releases that settle. Only while
RUNNING. -/
def State.afterSources (s : State) (demand : Bool) : State :=
  if s.operating = .running then
    State.endReleased (State.resolve (if demand then s.runPlan false none else s))
  else s

/-- The same where an input of the closure unit changed too: its work comes first, and a taper extension is a change of
demand (R100). -/
def State.afterClosures (s : State) (demand : Bool) : State :=
  if s.operating = .running then
    let t := s.workClosures
    t.afterSources (demand || decide (tapersOf t.closures ≠ tapersOf s.closures))
  else s

/-! ## CLOSURE_SET (R88, R89) -/

def closureSetFields (s : State) (b : Bytes) : List FieldCheck :=
  [(1, within 1 255 (u8At b 0)),
   (2, !(lanesOf (b.getD 1 0)).isEmpty && (lanesOf (b.getD 1 0)).all (fun l => decide (l ≤ s.params.laneCount))),
   (3, within 1 3 (u8At b 2)),
   (4, decide (u8At b 2 ≤ u8At b 3 ∧ u8At b 3 < s.params.gantryCount)),
   (5, decide (u8At b 3 ≤ u8At b 4 ∧ u8At b 4 < s.params.gantryCount)),
   (6, within 1 255 (u8At b 5)),
   (7, within 5 120 (u8At b 6))]

/-- Gantries F-1, F-2, … toward gantry 0. -/
def upstreamOf (first : Nat) : List Nat := (List.range first).reverse

/-- The taper list as first formed: the first T speed-signing gantries walking upstream, or F-1..F-T (R89). -/
def formTaper (panels : List PanelRec) (first count : Nat) : List Nat :=
  let signing := (upstreamOf first).filter (fun g => !darkAt panels g)
  if signing.length < count then (upstreamOf first).take count else signing.take count

/-- The record CLOSURE_SET makes (R89). -/
def newClosure (s : State) (b : Bytes) : Closure where
  id := u8At b 0
  lanes := lanesOf (b.getD 1 0)
  first := u8At b 3
  last := u8At b 4
  taperCount := u8At b 2
  requestedCap := u8At b 5
  cap := roundInto s.displayable (u8At b 5)
  dwell := u8At b 6
  state := .requested
  taper := formTaper s.panels (u8At b 3) (u8At b 2)
  full := false
  taperBlocked := false
  taperLost := false
  slow := false
  created := s.clock
  dwellEntry := none
  duties := []

/-- A record takes its place by rising id. -/
def insertClosure (c : Closure) : List Closure → List Closure
  | [] => [c]
  | d :: rest => if c.id < d.id then c :: d :: rest else d :: insertClosure c rest

/-- The record of an id. -/
def closureOf (cs : List Closure) (id : Nat) : Option Closure := cs.find? (fun c => c.id == id)

/-- Where the record has been freed: ENDED. -/
def stateCode : Option Closure → Byte
  | some c => c.state.code
  | none => endedCode

/-- The record joins the table and every FULL mark is recomputed (R89, R90); the CREATED report carries the record after
that (DESIGN CHOICE, notes/assumptions/10.md). -/
def State.createClosure (s : State) (c : Closure) : State :=
  let table := recomputeFull s.params.laneCount (insertClosure c s.closures)
  State.report { s with closures := table }
    (.closureState s.clock .created .requested (some .requested) ((closureOf table c.id).getD c))

def closureSetEffect (b : Bytes) (s : State) : Answer :=
  if s.operating ≠ .running then refuse .wrongState s
  else
    match firstBad (closureSetFields s b) with
    | some f => badValue f s
    | none =>
      if (closureOf s.closures (u8At b 0)).isSome then refuse .idInUse s
      else if Config.closureCapacity ≤ s.closures.length then refuse .noRoom s
      else
        let t := (s.createClosure (newClosure s b)).afterClosures true
        let c := (closureOf t.closures (u8At b 0)).getD (newClosure s b)
        accept ([c.state.code] ++ encBool c.full ++ encList enc8 c.taper) t

/-! ## CLOSURE_RELEASE (R103) -/

/-- The record enters RELEASING: duties discarded, marks as they stand (R103, R101). -/
def releasing (c : Closure) : Closure := { c with state := .releasing, duties := [] }

/-- The table with one record replaced. -/
def putClosure (cs : List Closure) (c : Closure) : List Closure := cs.map (fun d => if d.id = c.id then c else d)

/-- A release from REQUESTED: the record goes straight to ENDED and is freed (R103). DESIGN CHOICE: its report carries the
marks as they stood before the release, FULL among them, though R90 recomputes every FULL mark on this transition
(notes/assumptions/31.md). -/
def State.endRequested (s : State) (c : Closure) : State :=
  State.report { s with closures := recomputeFull s.params.laneCount (s.closures.filter (fun d => d.id != c.id)) }
    (endedReport s.clock c)

/-- A release from ARROWS, DWELL or CLOSED (R103). -/
def State.enterReleasing (s : State) (c : Closure) : State :=
  State.report { s with closures := recomputeFull s.params.laneCount (putClosure s.closures (releasing c)) }
    (.closureState s.clock .state c.state (some .releasing) (releasing c))

def closureReleaseEffect (b : Bytes) (s : State) : Answer :=
  if u8At b 0 = 0 then badValue 1 s
  else
    match closureOf s.closures (u8At b 0) with
    | none => refuse .noSuchId s
    | some c =>
      match c.state with
      | .requested => accept [endedCode] ((s.endRequested c).afterClosures true)
      | .arrows | .dwell | .closed =>
        let t := (s.enterReleasing c).afterClosures true
        accept [stateCode (closureOf t.closures (u8At b 0))] t
      | .releasing => accept [ClosureState.code .releasing] s

/-! ## CLOSURE_QUERY (R107) -/

def encDuty (d : Duty) : Bytes := enc8 d.gantry ++ enc8 d.lane ++ [d.kind.code] ++ encBool d.settled

/-- The lead gantry of a lane as a query tells it; none in RELEASING, which has no lead panels (R99). -/
def leadShown (panels : List PanelRec) (c : Closure) (l : Nat) : Option Nat :=
  if c.active then leadGantry panels c l else none

/-- The whole record (R86, R107). DESIGN CHOICE: the duties stand by taper gantry in order of joining and within it by rising lane,
the lead panels in rising lane (notes/assumptions/30.md). -/
def encClosure (panels : List PanelRec) (c : Closure) : Bytes :=
  enc8 c.id ++ encSet 1 c.lanes ++ enc8 c.first ++ enc8 c.last ++ enc8 c.taperCount ++ enc8 c.requestedCap ++ enc8 c.cap
    ++ enc8 c.dwell ++ [c.state.code] ++ encList enc8 c.taper ++ encMarks c ++ encClock c.created
    ++ encOpt 4 encClock c.dwellEntry ++ (if c.established then encList encDuty c.duties else [])
    ++ encList (fun l => encOpt 1 enc8 (leadShown panels c l)) c.lanes

def closureQueryEffect (b : Bytes) (s : State) : Answer :=
  if u8At b 0 = 0 then accept (encList (fun c => enc8 c.id ++ [c.state.code]) s.closures) s
  else
    match closureOf s.closures (u8At b 0) with
    | none => refuse .noSuchId s
    | some c => accept (encClosure s.panels c) s

/-! ## Time (R97, R102) -/

/-- Seconds of the corridor clock since a time, modulo 2^32 (R8). -/
def elapsed (now since : Clock) : Nat := (now - since).toNat

/-- R97: the dwell timer of a closure in DWELL has reached c + dwell + 1. -/
def dwellDue (now : Clock) (c : Closure) : Bool :=
  c.state == .dwell &&
    (match c.dwellEntry with
     | some t => decide (c.dwell + 1 ≤ elapsed now t)
     | none => false)

/-- R102: a closure not yet CLOSED whose creation time plus establish_limit the clock has reached, not yet SLOW. -/
def slowDue (now : Clock) (limit : Nat) (c : Closure) : Bool :=
  (c.state == .requested || c.state == .arrows || c.state == .dwell) && !c.slow
    && decide (limit ≤ elapsed now c.created)

/-- R97: every closure whose dwell timer has run out enters CLOSED, with its report, in rising id. -/
def State.closeDue (s : State) : State :=
  State.reports
    { s with closures := s.closures.map (fun c => if dwellDue s.clock c then { c with state := .closed } else c) }
    ((s.closures.filter (dwellDue s.clock)).map
      (fun c => .closureState s.clock .state .dwell (some .closed) { c with state := .closed }))

/-- R102: SLOW is set in every closure that is late, with its report, in rising id. -/
def State.markSlow (s : State) : State :=
  State.reports
    { s with
      closures := s.closures.map (fun c => if slowDue s.clock s.params.establishLimit c then { c with slow := true } else c) }
    ((s.closures.filter (slowDue s.clock s.params.establishLimit)).map
      (fun c => .closureState s.clock (.markSet .slow) c.state (some c.state) { c with slow := true }))

/-- DWELL_EXPIRY of the closure `id`: the dwell expiries of an advance are one event (R97), so those of every other closure that
is due are taken with it, and the maps, the duties and the aspects are recomputed once and handed on once. Where the closure's
timer does not run or has not run out nothing happens (notes/assumptions/2.md, 29.md). -/
def State.expireDwell (s : State) (id : Nat) : State :=
  if s.operating = .running ∧ s.closures.any (fun c => c.id == id && dwellDue s.clock c) then
    State.transmit (s.closeDue.afterClosures false)
  else s

/-- ESTABLISH_LIMIT_EXPIRY of the closure `id`: the checks of an advance (R102), so every other closure that is late is marked
with it. The dwell expiries of an advance come first (R97), so it does not occur while one is due (notes/assumptions/2.md,
29.md). -/
def State.expireEstablish (s : State) (id : Nat) : State :=
  if s.operating = .running ∧ s.closures.any (fun c => c.id == id && slowDue s.clock s.params.establishLimit c)
      ∧ !s.closures.any (dwellDue s.clock) then
    State.transmit s.markSlow
  else s

end Sys2Proof.Machine
end

