-- ==== Sys2Proof/Machine/History.lean ====
section
/-! DEFINITION. The aspect history capture (chapter 8). -/

namespace Sys2Proof.Machine

open Sys2Proof

/-- R149: a record is appended; at 64 the oldest is discarded; written wraps from 65535 to 0. -/
def History.append (h : History) (r : HistRec) : History :=
  { h with
    ring := if h.ring.length < Config.ringCapacity then h.ring ++ [r] else h.ring.drop 1 ++ [r]
    written := (h.written + 1) % 65536 }

/-- R148: while FROZEN a change makes no record. -/
def History.record (h : History) (r : HistRec) : History := if h.frozen.isSome then h else h.append r

/-- R150: a freeze; in FROZEN it changes nothing and queues no report. -/
def State.freeze (s : State) (source : FreezeSource) : State :=
  if s.history.frozen.isSome then s
  else
    State.report { s with history := { s.history with frozen := some ⟨s.clock, source⟩ } }
      (.historyFrozen ⟨s.clock, source⟩ s.history.ring.length s.history.written)

/-- The freeze time and source; nothing while CAPTURING (notes/assumptions/14.md). -/
def encFreeze : Option Freeze → Bytes
  | some f => encClock f.time ++ encFreezeSource f.source
  | none => []

/-- held and written (R177). -/
def encHeld (h : History) : Bytes := enc16 h.ring.length ++ enc16 h.written

def historyFreezeEffect (_b : Bytes) (s : State) : Answer :=
  let t := s.freeze .request
  accept (encBool s.history.frozen.isNone ++ encFreeze t.history.frozen ++ encHeld t.history) t

/-- A record with its index (R152). -/
def encHistRec (x : HistRec × Nat) : Bytes :=
  enc8 x.2 ++ encClock x.1.time ++ enc8 x.1.panel.gantry ++ enc8 x.1.panel.panel ++ encOpt 3 encAspect x.1.previous
    ++ encAspect x.1.now ++ encCause x.1.cause ++ [if x.1.good then 0 else 1]

/-- The records at indices from start up to the smaller of start + count - 1 and held - 1 (R152). -/
def History.slice (h : History) (start count : Nat) : List (HistRec × Nat) := (h.ring.zipIdx.drop start).take count

def historyReadFields (b : Bytes) : List FieldCheck := [(1, true), (2, within 1 8 (u8At b 1))]

def historyReadEffect (b : Bytes) (s : State) : Answer :=
  match firstBad (historyReadFields b) with
  | some f => badValue f s
  | none =>
    if s.history.frozen.isNone then refuse .notFrozen s
    else
      accept (encFreeze s.history.frozen ++ encHeld s.history
        ++ encList encHistRec (s.history.slice (u8At b 0) (u8At b 1))) s

def historyResumeEffect (_b : Bytes) (s : State) : Answer := accept [] { s with history := History.empty }

end Sys2Proof.Machine
end

