-- ==== Sys2Proof/Machine/Lines.lean ====
section
/-! DEFINITION. The panel lines (chapter 7): transactions, outcomes, health, refresh, supply, quiesce and resume. -/

namespace Sys2Proof.Machine

open Sys2Proof

/-! ## Starting a transaction (R128, R179) -/

/-- The oldest SAFETY entry, or with none the oldest ROUTINE entry (R128). -/
def nextEntry (queue : List PendEntry) : Option PendEntry :=
  match queue.find? (fun e => e.cls == .safety) with
  | some e => some e
  | none => queue.head?

/-- The desired aspect of a panel, as the aspect table holds it. -/
def State.desiredOf (s : State) (p : PanelId) : Option Aspect := (entryAt s.aspects p).map (·.desired)

/-- The desired aspect of the panel on a line and address. -/
def State.desiredOn (s : State) (l : LineId) (address : Nat) : Option Aspect :=
  (panelOn s.panels l address).bind (fun r => s.desiredOf r.panel)

/-- A line starts a transaction when it is IDLE, its supply is NORMAL, its queue is not empty and the part is RUNNING: the
entry leaves the queue and the panel's desired aspect of that moment is sent (R128). -/
def State.startTransaction (s : State) (l : LineId) : State :=
  let line := s.lines.get l
  if s.operating = .running ∧ line.mode = .idle ∧ line.supply = .normal then
    match nextEntry line.queue with
    | none => s
    | some e =>
      match s.desiredOn l e.address with
      | none => s
      | some want =>
        s.setLine l { line with
          mode := .busy
          queue := line.queue.erase e
          inFlight := some ⟨e.address, want.bytes, e.cls, .send⟩ }
  else s

/-- R130, R145: the line's transmit enable, the output LADE, LBDE, LCDE or LDDE (00, Signals). It is asserted while the in-flight
transaction is in its send phase, and released after the request's last stop bit, or at once where a reset abandons the
transaction (R18). It is not stored: the phase holds it. -/
def Line.transmitEnable (line : Line) : Bool :=
  match line.inFlight with
  | some t => t.phase == .send
  | none => false

/-- The in-flight transaction moves from one phase to the next (R130). -/
def State.advancePhase (s : State) (l : LineId) (before after : Phase) : State :=
  match (s.lines.get l).inFlight with
  | none => s
  | some t =>
    if t.phase = before then s.setLine l { s.lines.get l with inFlight := some { t with phase := after } } else s

/-! ## Judging a reply (R132, R178, R180) -/

/-- A judged reply: the outcome, the aspect confirmed, and the two bytes taken. -/
structure Judged where
  outcome : TxOutcome
  aspect : Option Aspect
  fault : Option Byte
  pixel : Option Nat
  deriving DecidableEq, Repr

def Judged.noReply : Judged := ⟨.noReply, none, none, none⟩

/-- The characters of a reply; none when one of them is a framing error (R130). -/
def replyBytes : List RxChar → Option Bytes
  | [] => some []
  | .framingError :: _ => none
  | .good b :: rest => (replyBytes rest).map (fun bs => b :: bs)

/-- The address character of a reply: the address with bit 7 set (R178). -/
def replyMarker (address : Nat) : Byte := byteOf address ||| 0x80

/-- A reply of seven characters, from the panel `panel` of its gantry, to a transaction: CRC, address, decoding, then GOOD
or MISMATCH (R180). -/
def judgeBytes (t : InFlight) (panel : Nat) : Bytes → Judged
  | [address, code, speed, legend, fault, pixel, check] =>
    if crc8 [address, code, speed, legend, fault, pixel] = check ∧ address = replyMarker t.address then
      match decodeAspect panel ⟨code, speed, legend⟩ with
      | none => Judged.noReply
      | some a =>
        if (⟨code, speed, legend⟩ : AspectBytes) = t.sent then ⟨.good, some a, some fault, some (min pixel.toNat 100)⟩
        else ⟨.mismatch, some a, some fault, none⟩
    else Judged.noReply
  | _ => Judged.noReply

/-- The seven characters of a reply judged: characters after the seventh are ignored, a short reply or one that holds a
framing error is NO_REPLY (R130). -/
def judge (t : InFlight) (panel : Nat) (chars : List RxChar) : Judged :=
  match replyBytes (chars.take 7) with
  | none => Judged.noReply
  | some bs => judgeBytes t panel bs

/-! ## Health (R135, R136, R140) -/

/-- A counted failure (R135). -/
def countFailure (failLimit : Nat) (r : PanelRec) : PanelRec :=
  { r with
    goodCount := 0
    failCount := min (r.failCount + 1) 15
    health := if r.health = .failed ∨ failLimit ≤ min (r.failCount + 1) 15 then .failed else .suspect }

/-- A counted GOOD (R135). -/
def countGood (recoverCount : Nat) (r : PanelRec) : PanelRec :=
  if r.health = .failed then
    if recoverCount ≤ r.goodCount + 1 then { r with failCount := 0, goodCount := 0, health := .healthy }
    else { r with failCount := 0, goodCount := min (r.goodCount + 1) 15 }
  else { r with failCount := 0, goodCount := 0, health := .healthy }

/-- The counts and health after an outcome; none is counted while the supply is LOW (R140). -/
def countOutcome (p : Params) (supply : Supply) (o : TxOutcome) (r : PanelRec) : PanelRec :=
  match supply with
  | .low => r
  | .normal =>
    match o with
    | .good => countGood p.recoverCount r
    | .mismatch | .noReply => countFailure p.failLimit r

/-- What an outcome records, whatever the supply (R132). -/
def recordOutcome (p : Params) (now : Clock) (j : Judged) (r : PanelRec) : PanelRec :=
  { r with
    confirmed := match j.aspect with
      | some a => some a
      | none => r.confirmed
    fault := match j.fault with
      | some b => some b
      | none => r.fault
    pixel := match j.pixel with
      | some v => some v
      | none => r.pixel
    degraded := match j.pixel with
      | some v => decide (p.degradePercent ≤ v)
      | none => r.degraded
    lastOutcome := some j.outcome
    lastTime := now }

/-- The panel record updated whole (R134). -/
def updatePanel (p : Params) (supply : Supply) (now : Clock) (j : Judged) (r : PanelRec) : PanelRec :=
  countOutcome p supply j.outcome (recordOutcome p now j r)

/-! ## Applying an outcome (R132 to R134, R137, R138) -/

/-- The records with one replaced. -/
def putPanel (ps : List PanelRec) (r : PanelRec) : List PanelRec := ps.map (fun q => if q.addr = r.addr then r else q)

/-- R133: the retry of a failed transaction. -/
def retryEntry (queue : List PendEntry) (t : InFlight) : List PendEntry :=
  if hasEntry queue t.address then
    queue.map (fun e => if e.address = t.address ∧ t.cls = .safety then { e with cls := .safety } else e)
  else queue ++ [⟨t.address, t.cls⟩]

/-- R133, R14: a failure is retried while RUNNING unless the panel is FAILED after it. -/
def State.retry (s : State) (l : LineId) (t : InFlight) (o : TxOutcome) (r : PanelRec) : State :=
  if s.operating = .running ∧ o ≠ .good ∧ r.health ≠ .failed then
    s.setLine l { s.lines.get l with queue := retryEntry (s.lines.get l).queue t }
  else s

/-- The cause of a panel's entry as it stands (R148). -/
def State.causeOf (s : State) (p : PanelId) : Cause :=
  match entryAt s.aspects p with
  | some e => e.cause
  | none => .plan

/-- R148: a changed confirmed aspect is recorded. -/
def State.recordChange (s : State) (old new : PanelRec) (o : TxOutcome) : State :=
  match new.confirmed with
  | some a =>
    if old.confirmed = new.confirmed then s
    else
      { s with
        history := s.history.record ⟨s.clock, new.panel, old.confirmed, a, s.causeOf new.panel, o == .good⟩ }
  | none => s

/-- R137: a change into or out of FAILED is reported. -/
def State.reportHealth (s : State) (old new : PanelRec) (o : TxOutcome) : State :=
  if old.health ≠ new.health ∧ (old.health = .failed ∨ new.health = .failed) then
    s.report (.panelHealth s.clock new old.health o)
  else s

/-- R166: a changed confirmed aspect asks for the gantry's GANTRY_SHOWN. -/
def State.askShown (s : State) (old new : PanelRec) : State :=
  if old.confirmed = new.confirmed then s else s.report (.gantryShown new.panel.gantry)

/-- The outcome applied to the record held for the line and address the transaction was sent to, and handed on as one event
(R134). The history reads the cause before the aspect table acts on the outcome (R148). A message panel's outcome does not
go to the closure unit or the speed plan (R134, R138). The retry entry is placed before the entries of the desired-aspect
changes the same outcome causes (DESIGN CHOICE, notes/assumptions/28.md). -/
def State.applyOutcome (s : State) (l : LineId) (t : InFlight) (j : Judged) (old : PanelRec) : State :=
  let new := updatePanel s.params (s.lines.get l).supply s.clock j old
  let s1 := s.recordChange old new j.outcome
  let s2 := { s1 with panels := putPanel s1.panels new }
  let s3 := (s2.retry l t j.outcome new).reportHealth old new j.outcome
  let s4 := if new.panel.panel = 0 then s3.afterSources false else s3.afterClosures (decide (s3.darkness ≠ s.darkness))
  s4.askShown old new

/-- A transaction ends: the line enters GAP with nothing in flight (R130), and the outcome is applied where a record is
held for the line and address (R125). -/
def State.endTransaction (s : State) (l : LineId) (t : InFlight) (judgeBy : Nat → Judged) : State :=
  let s1 := s.setLine l { s.lines.get l with mode := .gap, inFlight := none }
  match panelOn s.panels l t.address with
  | none => s1
  | some r => State.transmit (s1.applyOutcome l t (judgeBy r.panel.panel) r)

/-- The transaction ends if it stands in this phase; an event of another phase does not occur (notes/assumptions/2.md). -/
def State.endIn (s : State) (l : LineId) (phase : Phase) (judgeBy : InFlight → Nat → Judged) : State :=
  match (s.lines.get l).inFlight with
  | none => s
  | some t => if t.phase = phase then s.endTransaction l t (judgeBy t) else s

/-! ## The gap (R131) -/

def State.endGap (s : State) (l : LineId) : State :=
  let line := s.lines.get l
  if line.mode = .gap then
    s.setLine l { line with mode := if line.quiescePending then .quiesced else .idle, quiescePending := false }
  else s

/-! ## Refresh (R129, R141) -/

/-- The panel has neither a pending entry nor a transaction in flight on its line. -/
def unaddressed (line : Line) (address : Nat) : Bool :=
  !hasEntry line.queue address &&
    (match line.inFlight with
     | some t => t.address != address
     | none => true)

/-- The panel's last transaction time lies refresh_period seconds or more behind the corridor clock (R129). -/
def refreshDueNow (now : Clock) (period : Nat) (r : PanelRec) : Bool := decide (period ≤ elapsed now r.lastTime)

/-- ROUTINE entries for the unaddressed panels of the line that pass a test, in table order, which is gantry order upward
and within a gantry lane 1..N and then the message panel (R129, R141). -/
def refreshEntries (panels : List PanelRec) (l : LineId) (line : Line) (test : PanelRec → Bool) : List PendEntry :=
  (panels.filter (fun r => r.addr.line == l && unaddressed line r.addr.address && test r)).map
    (fun r => ⟨r.addr.address, .routine⟩)

def State.refresh (s : State) (l : LineId) (test : PanelRec → Bool) : State :=
  s.setLine l { s.lines.get l with
    queue := (s.lines.get l).queue ++ refreshEntries s.panels l (s.lines.get l) test }

/-! ## Supply (R139, R141) -/

/-- The LINE_STATE report of a line as it stands (R139). -/
def State.lineReport (s : State) (l : LineId) : Report :=
  .lineState s.clock l (s.lines.get l).supply (s.lines.get l).mode (s.lines.get l).quiescePending
    (s.lines.get l).queue.length

/-- The supply state becomes another: a crossing, reported. -/
def State.crossSupply (s : State) (l : LineId) (v : Supply) : State :=
  let t := s.setLine l { s.lines.get l with supply := v }
  t.report (t.lineReport l)

/-- The line's supply state follows the sensed supply, with hysteresis. While NRST is low the part is held in reset and only
the pin moves; the state is taken afresh at the release (R139). -/
def State.followSense (s : State) (l : LineId) (level : Nat) : State :=
  let t := { s with sense := s.sense.set l level }
  if s.nrstLow then t
  else
    match (s.lines.get l).supply with
    | .normal => if level < Config.supplyLow then State.transmit (t.crossSupply l .low) else t
    | .low =>
      if Config.supplyNormal < level then
        let u := t.crossSupply l .normal
        State.transmit (if s.operating = .running then u.refresh l (fun _ => true) else u)
      else t

/-! ## LINE_QUIESCE, LINE_RESUME (R142, R143) -/

def quiesceLine (line : Line) : Line :=
  match line.mode with
  | .idle => { line with mode := .quiesced }
  | .busy | .gap => { line with quiescePending := true }
  | .quiesced => line

def resumeLine (line : Line) : Line :=
  match line.mode with
  | .quiesced => { line with mode := .idle }
  | .busy | .gap => { line with quiescePending := false }
  | .idle => line

/-- The reply of both: the line state and quiesce pending after the request. -/
def State.changeLine (s : State) (b : Bytes) (f : Line → Line) : Answer :=
  match lineOf (u8At b 0) with
  | none => badValue 1 s
  | some l =>
    accept ([(f (s.lines.get l)).mode.code] ++ encBool (f (s.lines.get l)).quiescePending) (s.setLine l (f (s.lines.get l)))

def lineQuiesceEffect (b : Bytes) (s : State) : Answer := s.changeLine b quiesceLine

def lineResumeEffect (b : Bytes) (s : State) : Answer := s.changeLine b resumeLine

end Sys2Proof.Machine
end

