-- ==== Sys2Proof/Machine/Traffic.lean ====
section
/-! DEFINITION. The traffic state (chapter 2): one detector record, ageing, bands. -/

namespace Sys2Proof.Machine

open Sys2Proof

/-- A lane entry of a DETECTOR request (2.2). -/
structure LaneEntry where
  count : Nat
  occ : Nat
  speed : Nat
  flags : LaneFlags
  deriving DecidableEq, Repr

/-- The entry of lane l of a DETECTOR body (10.3). -/
def laneEntry (b : Bytes) (l : Nat) : LaneEntry :=
  ⟨u8At b (5 * l - 2), u16At b (5 * l - 1), u8At b (5 * l + 1), laneFlagsOf (b.getD (5 * l + 2) 0)⟩

/-- The fields of DETECTOR (R20): every value that fits its field is in range, but for field 3 and the flags. -/
def detectorFields (s : State) (b : Bytes) : List FieldCheck :=
  [(1, decide (u8At b 0 < s.params.gantryCount)), (2, true), (3, decide (u8At b 2 = s.params.laneCount))]
  ++ (lanesTo (u8At b 2)).map (fun l => (4 * l + 3, laneFlagsLegal (b.getD (5 * l + 2) 0)))

/-! ## Clamping and smoothing (R21, R25 to R27) -/

/-- An occupancy above 1000 is taken as 1000 (R21). -/
def clampOcc (occ : Nat) : Nat := min occ 1000

/-- The speed of the record: absent at 255 or with count 0 (R25); 251..254 is taken as 250 (R21). -/
def entrySpeed (e : LaneEntry) : Option Nat := if e.speed = 255 ∨ e.count = 0 then none else some (min e.speed 250)

/-- A smoothed value moves toward the reading by k sixteenths, the step truncated toward zero (R27); none is seeded (R26). -/
def smooth (k : Nat) (held : Option Nat) (x : Nat) : Nat :=
  match held with
  | none => 16 * x
  | some v => ((v : Int) + Int.tdiv ((k : Int) * (16 * (x : Int) - (v : Int))) 16).toNat

/-- One lane updated from its entry (R24 to R27). -/
def updateLane (p : Params) (old : LaneTraffic) (e : LaneEntry) : LaneTraffic :=
  if LaneFlags.fault e.flags then { old with present := false, count := none, flags := none }
  else
    { present := true
      speed := match entrySpeed e with
        | none => old.speed
        | some x => some (smooth p.kSpeed old.speed x)
      occ := some (smooth p.kOcc old.occ (clampOcc e.occ))
      count := some e.count
      flags := some e.flags }

/-! ## Aggregates (R28, R29) -/

def wholeUnits (v : Nat) : Nat := v / 16

/-- The lanes present in the record. -/
def presentLanes (ls : List LaneTraffic) : List LaneTraffic := ls.filter (·.present)

def aggregateSpeed (ls : List LaneTraffic) : Option Nat :=
  ((presentLanes ls).filterMap (fun l => l.speed.map wholeUnits)).min?

def aggregateOcc (ls : List LaneTraffic) : Option Nat :=
  ((presentLanes ls).filterMap (fun l => l.occ.map wholeUnits)).max?

def aggregateStatus (ls : List LaneTraffic) : Option LaneFlags :=
  if (presentLanes ls).isEmpty then none
  else some ((presentLanes ls).foldl (fun acc l => acc ||| l.flags.getD 0) 0)

def aggregateCount (ls : List LaneTraffic) : Option Nat :=
  if (presentLanes ls).isEmpty then none
  else some ((presentLanes ls).foldl (fun acc l => acc + l.count.getD 0) 0)

/-! ## Bands (R34 to R36) -/

/-- The enter condition of a band; on occupancy alone while the speed is absent (R34, R36). -/
def enters (occ : Nat) (speed : Option Nat) (b : Band) : Bool :=
  decide (b.occOn ≤ occ) || (match speed with
    | some v => decide (v ≤ b.spdOn)
    | none => false)

/-- The exit condition of a band; on occupancy alone while the speed is absent (R35, R36). -/
def exits (occ : Nat) (speed : Option Nat) (b : Band) : Bool :=
  decide (occ < b.occOff) && (match speed with
    | some v => decide (b.spdOff < v)
    | none => true)

/-- b_enter: the number of the highest band whose enter condition holds, or 0 (R34). -/
def bandEntered (occ : Nat) (speed : Option Nat) : List Band → Nat
  | [] => 0
  | b :: rest =>
    if bandEntered occ speed rest ≠ 0 then bandEntered occ speed rest + 1 else if enters occ speed b then 1 else 0

/-- The band after a record (R34 to R36). -/
def reclass (bands : List Band) (band : Nat) (occ speed : Option Nat) : Nat :=
  match occ with
  | none => band
  | some o =>
    if band < bandEntered o speed bands then bandEntered o speed bands
    else
      match band, bands[band - 1]? with
      | b + 1, some x => if exits o speed x then b else band
      | _, _ => band

/-! ## A record applied (R23) -/

def applyRecord (p : Params) (bands : List Band) (old : TrafficRec) (seq : Nat) (entries : List LaneEntry) : TrafficRec :=
  let lanes := List.zipWith (updateLane p) old.lanes entries
  { absent := false
    age := 0
    lastSeq := some seq
    band := reclass bands old.band (aggregateOcc lanes) (aggregateSpeed lanes)
    aggSpeed := aggregateSpeed lanes
    aggOcc := aggregateOcc lanes
    aggStatus := aggregateStatus lanes
    aggCount := aggregateCount lanes
    lanes := lanes }

/-! ## Ageing (R31, R32) -/

/-- R32: every smoothed value, item and aggregate goes; the band and the last sequence are kept. -/
def becomeAbsent (r : TrafficRec) : TrafficRec :=
  { r with
    absent := true
    aggSpeed := none
    aggOcc := none
    aggStatus := none
    aggCount := none
    lanes := r.lanes.map (fun _ => LaneTraffic.none) }

/-- One plan-period expiry at one gantry. -/
def ageRec (staleLimit : Nat) (r : TrafficRec) : TrafficRec :=
  let aged := { r with age := min (r.age + 1) 255 }
  if aged.age = staleLimit then becomeAbsent aged else aged

/-! ## Query section (R40) -/

def encLane (l : LaneTraffic) : Bytes :=
  encBool l.present ++ encOpt 1 enc8 (l.speed.map wholeUnits) ++ encOpt 2 enc16 (l.occ.map wholeUnits)
    ++ encOpt 1 enc8 l.count ++ encOpt 1 encLaneFlags l.flags

/-- The traffic section of a gantry; while STOPPED, what START would set (R40). No count byte stands before the entries of
the N lanes (DESIGN CHOICE, notes/assumptions/14.md). -/
def State.encTraffic (s : State) (g : Nat) : Bytes :=
  let r := if s.operating = .running then s.trafficAt g else TrafficRec.fresh s.params.laneCount
  encBool r.absent ++ enc8 r.age ++ encOpt 1 enc8 r.lastSeq ++ enc8 r.band
    ++ enc8 (congestionDemand (s.bands.getD []) s.corridorMax r.band)
    ++ encOpt 1 enc8 r.aggSpeed ++ encOpt 2 enc16 r.aggOcc ++ encOpt 1 encLaneFlags r.aggStatus
    ++ encOpt 2 enc16 r.aggCount ++ r.lanes.flatMap encLane

end Sys2Proof.Machine
end

