-- ==== Sys2Proof/Machine/Trigger.lean ====
section
/-! DEFINITION. The trigger unit (chapter 3): programs, the evaluation of a gantry, the warning table. -/

namespace Sys2Proof.Machine

open Sys2Proof

/-! ## Programs (R41 to R43) -/

def State.slot (s : State) (p : Nat) : ProgramSlot := s.programs.getD p ⟨none, false⟩

/-- The fields of an enabled program. -/
def State.enabledProgram (s : State) (p : Nat) : Option Program :=
  if (s.slot p).enabled then (s.slot p).fields else none

/-- The program numbers 0..7. -/
def programNumbers : List Nat := List.range 8

/-- A mask byte is 0..15; a value lies in -255..1000, or 0..15 when the comparator's field is STATUS (R41). -/
def comparatorFields (b : Bytes) (offset field : Nat) : List FieldCheck :=
  [(field, (trigFieldOf (u8At b offset)).isSome),
   (field + 1, (relationOf (u8At b (offset + 1))).isSome),
   (field + 2,
    if trigFieldOf (u8At b offset) = some .status then decide (0 ≤ s16At b (offset + 2) ∧ s16At b (offset + 2) ≤ 15)
    else decide (-255 ≤ s16At b (offset + 2) ∧ s16At b (offset + 2) ≤ 1000)),
   (field + 3, within 0 15 (u8At b (offset + 4)))]

/-- R176: no bit above 3, and at least one of WARN, REPORT and FREEZE. -/
def actionsLegal (b : Byte) : Bool := decide (b.toNat < 16) && decide (b &&& 0x07 ≠ 0)

/-- The fields of TRIGGER_SET after the program number (R41). -/
def triggerSetFields (b : Bytes) : List FieldCheck :=
  [(2, within 0 31 (u8At b 1)), (3, within (u8At b 1) 31 (u8At b 2)), (4, (sourceOf (u8At b 3)).isSome)]
  ++ comparatorFields b 4 5 ++ comparatorFields b 9 9
  ++ [(13, (trigModeOf (u8At b 14)).isSome),
      (14, trigModeOf (u8At b 14) != some .aThenB || within 1 15 (u8At b 15)),
      (15, within 0 31 (u8At b 16)),
      (16, actionsLegal (b.getD 17 0)),
      (17, !(actionsOf (b.getD 17 0)).warn || within 1 255 (u8At b 18)),
      (18, !(actionsOf (b.getD 17 0)).warn || within 1 60 (u8At b 19))]

def comparatorAt (b : Bytes) (offset : Nat) : Comparator :=
  ⟨(trigFieldOf (u8At b offset)).getD .speed, (relationOf (u8At b (offset + 1))).getD .le, s16At b (offset + 2),
   laneFlagsOf (b.getD (offset + 4) 0)⟩

/-- The program a body in range spells; a field not looked at is held as 0 (R41, 10.3). -/
def programAt (b : Bytes) : Program :=
  let mode := (trigModeOf (u8At b 14)).getD .a
  let actions := actionsOf (b.getD 17 0)
  { first := u8At b 1
    last := u8At b 2
    source := (sourceOf (u8At b 3)).getD .aggregate
    compA := comparatorAt b 4
    compB := comparatorAt b 9
    mode := mode
    window := if mode = .aThenB then u8At b 15 else 0
    preset := u8At b 16
    actions := actions
    warnCap := if actions.warn then u8At b 18 else 0
    warnHold := if actions.warn then u8At b 19 else 0 }

def State.setSlot (s : State) (p : Nat) (v : ProgramSlot) : State := { s with programs := s.programs.set p v }

def triggerSetEffect (b : Bytes) (s : State) : Answer :=
  if 7 < u8At b 0 then badValue 1 s
  else if (s.slot (u8At b 0)).enabled then refuse .wrongState s
  else
    match firstBad (triggerSetFields b) with
    | some f => badValue f s
    | none => accept [] (s.setSlot (u8At b 0) ⟨some (programAt b), false⟩)

/-- R44: the working records of a program as created: one at each gantry of its span below G. -/
def newInsts (gantryCount p : Nat) (prog : Program) : List TrigInst :=
  ((List.range gantryCount).filter (fun g => decide (prog.first ≤ g ∧ g ≤ prog.last))).map
    (fun g => ⟨p, g, prog.preset, 0, false⟩)

def triggerEnableEffect (b : Bytes) (s : State) : Answer :=
  if 7 < u8At b 0 then badValue 1 s
  else
    match (s.slot (u8At b 0)).fields with
    | none => refuse .wrongState s
    | some prog =>
      if (s.slot (u8At b 0)).enabled then accept (enc8 0) s
      else
        let t := s.setSlot (u8At b 0) ⟨some prog, true⟩
        if s.operating = .running then
          accept (enc8 (newInsts s.params.gantryCount (u8At b 0) prog).length)
            { t with insts := t.insts ++ newInsts s.params.gantryCount (u8At b 0) prog }
        else accept (enc8 0) t

/-! ## Warnings (R56, R57, R61) -/

/-- The warning cap and hold of an enabled program. -/
def State.ownerCap (s : State) (p : Nat) : Option Nat := (s.enabledProgram p).map (·.warnCap)

def State.ownerHold (s : State) (p : Nat) : Option Nat := (s.enabledProgram p).map (·.warnHold)

/-- The smallest warning cap among the owners' programs (R56). -/
def State.ownersCap (s : State) (owners : List Nat) : Nat := ((owners.filterMap s.ownerCap).min?).getD 0

/-- The largest warning hold among the owners' programs (R57). -/
def State.ownersHold (s : State) (owners : List Nat) : Nat := ((owners.filterMap s.ownerHold).max?).getD 0

/-- A number takes its place in a rising list without repetition. -/
def insertNumber (n : Nat) : List Nat → List Nat
  | [] => [n]
  | m :: rest => if n < m then n :: m :: rest else if n = m then m :: rest else m :: insertNumber n rest

/-- A warning takes its place by rising gantry. -/
def insertWarning (w : Warning) : List Warning → List Warning
  | [] => [w]
  | v :: rest => if w.gantry < v.gantry then w :: v :: rest else v :: insertWarning w rest

/-- A warning whose owners change: caps recomputed (R56). -/
def State.reown (s : State) (w : Warning) (owners : List Nat) : Warning :=
  { w with
    owners := owners
    requestedCap := s.ownersCap owners
    cap := roundInto s.displayable (s.ownersCap owners) }

def putWarning (ws : List Warning) (w : Warning) : List Warning :=
  ws.map (fun v => if v.gantry = w.gantry then w else v)

def dropWarning (ws : List Warning) (g : Nat) : List Warning := ws.filter (fun w => w.gantry != g)

/-- R57: WARN of program p at gantry g. -/
def State.placeWarning (s : State) (p g : Nat) : State × Placement :=
  match warningAt s.warnings g with
  | some w =>
    let owners := insertNumber p w.owners
    ({ s with warnings := putWarning s.warnings { s.reown w owners with hold := s.ownersHold owners } }, .merged)
  | none =>
    if s.warnings.length < Config.warningCapacity then
      ({ s with
         warnings := insertWarning
           { s.reown ⟨g, [], 0, 0, 0, s.clock⟩ [p] with hold := s.ownersHold [p] } s.warnings }, .placed)
    else (s, .notPlaced)

/-- R62: the report of a warning's ending. -/
def endReport (clock : Clock) (reason : EndReason) (w : Warning) : Report := .warningState clock (.ended reason) w

/-- The warning at a gantry ends with a reason (R59, R60). -/
def State.endWarning (s : State) (w : Warning) (reason : EndReason) : State :=
  State.report { s with warnings := dropWarning s.warnings w.gantry } (endReport s.clock reason w)

/-- R63: what the speed plan reads of a warning table: gantries and requested caps. -/
def warningDemands (ws : List Warning) : List (Nat × Nat) := ws.map (fun w => (w.gantry, w.requestedCap))

/-! ## Comparators (R46 to R48) -/

/-- The aggregate speed of the reference gantry: the nearest downstream gantry that is not absent and has one (R47). -/
def referenceSpeed (traffic : List TrafficRec) (g : Nat) : Option Nat :=
  ((traffic.drop (g + 1)).filterMap (fun r => if r.absent then none else r.aggSpeed)).head?

/-- A field of gantry g, none when unknown (R30, R46, R47). -/
def State.fieldValue (s : State) (source : Source) (g : Nat) (f : TrigField) : Option Int :=
  let r := s.trafficAt g
  let lane : Nat → LaneTraffic := fun l => r.lanes.getD (l - 1) LaneTraffic.none
  match f with
  | .band => some r.band
  | .dspeed =>
    match r.aggSpeed, referenceSpeed s.traffic g with
    | some v, some w => some ((v : Int) - (w : Int))
    | _, _ => none
  | .speed =>
    match source with
    | .aggregate => r.aggSpeed.map Int.ofNat
    | .lane l => if (lane l).present then (lane l).speed.map (fun v => Int.ofNat (wholeUnits v)) else none
  | .occ =>
    match source with
    | .aggregate => r.aggOcc.map Int.ofNat
    | .lane l => if (lane l).present then (lane l).occ.map (fun v => Int.ofNat (wholeUnits v)) else none
  | .count =>
    match source with
    | .aggregate => r.aggCount.map Int.ofNat
    | .lane l => (lane l).count.map Int.ofNat
  | .status =>
    match source with
    | .aggregate => r.aggStatus.map (fun v => Int.ofNat v.toNat)
    | .lane l => (lane l).flags.map (fun v => Int.ofNat v.toNat)

/-- A relation between numbers (R48). -/
def Relation.holds (r : Relation) (x y : Int) : Bool :=
  match r with
  | .le => decide (x ≤ y)
  | .ge => decide (y ≤ x)
  | .eq => decide (x = y)
  | .ne => decide (x ≠ y)

/-- A number 0..15 with every flag outside the mask removed (R48). -/
def maskedBy (mask : LaneFlags) (v : Int) : Int := Int.ofNat ((BitVec.ofInt 4 v) &&& mask).toNat

/-- A comparator's result: true, false, or unknown as none (R48). -/
def compare (c : Comparator) (value : Option Int) : Option Bool :=
  value.map (fun v =>
    if c.field = .status then c.relation.holds (maskedBy c.mask v) (maskedBy c.mask c.value)
    else c.relation.holds v c.value)

/-! ## Outcomes, windows, counters (R49 to R52) -/

/-- A true result decides A_OR_B (R49). -/
def orResult : Option Bool → Option Bool → Option Bool
  | some true, _ => some true
  | _, some true => some true
  | some false, some false => some false
  | _, _ => none

/-- A false result decides A_AND_B (R49). -/
def andResult : Option Bool → Option Bool → Option Bool
  | some false, _ => some false
  | _, some false => some false
  | some true, some true => some true
  | _, _ => none

/-- The qualifying outcome and the window after, from the comparator results and the window before (R49, R50). -/
def qualify (mode : TrigMode) (w window : Nat) (a b : Option Bool) : Option Bool × Nat :=
  match mode with
  | .a => (a, 0)
  | .aOrB => (orResult a b, 0)
  | .aAndB => (andResult a b, 0)
  | .aThenB =>
    if window = 0 then (some false, if a = some true then w else 0)
    else if b = some true then (some true, window)
    else (b, window - 1)

/-- The values a firing's report carries: what each comparator read (R55). -/
def readValue : Option Int → ReadVal
  | some v => .known v
  | none => .unknown

def readA (mode : TrigMode) (window : Nat) (v : Option Int) : ReadVal :=
  if mode = .aThenB ∧ window ≠ 0 then .notRead else readValue v

def readB (mode : TrigMode) (v : Option Int) : ReadVal := if mode = .a then .notRead else readValue v

/-- A firing noted in step 1 (R45). -/
structure Firing where
  program : Nat
  readA : ReadVal
  readB : ReadVal
  deriving DecidableEq, Repr

/-- One working record after its evaluation, its q, and its firing if it fired (R45 step 1). -/
structure Evaluated where
  inst : TrigInst
  q : Option Bool
  firing : Option Firing
  deriving DecidableEq, Repr

/-- q applied to the counter and state (R51, R52). -/
def applyQ (prog : Program) (i : TrigInst) (q : Option Bool) (window : Nat) (firing : Firing) : Evaluated :=
  if i.fired then ⟨{ i with window := window }, q, none⟩
  else
    match q with
    | some true =>
      if i.counter = 0 then
        ⟨{ i with counter := if prog.actions.rearm then prog.preset else 0, window := 0, fired := !prog.actions.rearm },
         q, some firing⟩
      else ⟨{ i with counter := i.counter - 1, window := window }, q, none⟩
    | some false => ⟨{ i with counter := prog.preset, window := window }, q, none⟩
    | none => ⟨{ i with window := window }, q, none⟩

/-- The evaluation of one working record (R45 step 1). -/
def State.evaluate (s : State) (prog : Program) (i : TrigInst) : Evaluated :=
  let va := s.fieldValue prog.source i.gantry prog.compA.field
  let vb := s.fieldValue prog.source i.gantry prog.compB.field
  let qw := qualify prog.mode prog.window i.window (compare prog.compA va) (compare prog.compB vb)
  applyQ prog i qw.1 qw.2 ⟨i.program, readA prog.mode i.window va, readB prog.mode vb⟩

/-- The working records of enabled programs at a gantry, evaluated in rising program number (R45 step 1). -/
def State.evaluations (s : State) (g : Nat) : List Evaluated :=
  programNumbers.flatMap (fun p =>
    match s.enabledProgram p with
    | none => []
    | some prog => (s.insts.filter (fun i => i.program == p && i.gantry == g)).map (s.evaluate prog))

/-- The records after step 1: each evaluated one replaced. -/
def updateInsts (insts : List TrigInst) (evs : List Evaluated) : List TrigInst :=
  insts.map (fun i =>
    match evs.find? (fun e => e.inst.program == i.program && e.inst.gantry == i.gantry) with
    | some e => e.inst
    | none => i)

/-! ## Firings (R54, R55) -/

/-- One firing: WARN, REPORT, FREEZE (R54). -/
def State.fire (s : State) (g : Nat) (f : Firing) : State :=
  match s.enabledProgram f.program with
  | none => s
  | some prog =>
    let w := if prog.actions.warn then s.placeWarning f.program g else (s, .none)
    let s1 := w.1
    let s2 := if prog.actions.report then
        s1.report (.triggerFired s.clock f.program g (!prog.actions.rearm) f.readA f.readB w.2)
      else s1
    if prog.actions.freeze then s2.freeze (.trigger f.program g) else s2

/-- R57: the start report of a warning made in this evaluation, behind the firings' reports. It carries the warning as it
stands when the firings have been carried out (DESIGN CHOICE, notes/assumptions/11.md). -/
def State.announceWarning (s : State) (before : List Warning) (g : Nat) : State :=
  match warningAt before g, warningAt s.warnings g with
  | none, some w => s.report (.warningState s.clock .started w)
  | _, _ => s

/-! ## Hold (R58, R59) -/

/-- The q of an owner in this evaluation; unknown where it formed none. -/
def qOf (evs : List Evaluated) (p : Nat) : Option Bool :=
  match evs.find? (fun e => e.inst.program == p) with
  | some e => e.q
  | none => none

/-- R58: the remaining hold after the evaluation. -/
def State.holdAfter (s : State) (evs : List Evaluated) (w : Warning) : Nat :=
  if w.owners.any (fun p => qOf evs p == some true) then s.ownersHold w.owners
  else if w.owners.any (fun p => qOf evs p == some false) then w.hold - 1
  else w.hold

/-- Step 3 of R45: the hold of the warning at g; at 0 it ends (R59). -/
def State.updateHold (s : State) (evs : List Evaluated) (g : Nat) : State :=
  match warningAt s.warnings g with
  | none => s
  | some w =>
    if s.holdAfter evs w = 0 then s.endWarning w .holdExpired
    else { s with warnings := putWarning s.warnings { w with hold := s.holdAfter evs w } }

/-- The evaluation of gantry g (R45). -/
def State.evaluateGantry (s : State) (g : Nat) : State :=
  let evs := s.evaluations g
  let s1 := { s with insts := updateInsts s.insts evs }
  let s2 := (evs.filterMap (·.firing)).foldl (fun st f => st.fire g f) s1
  (s2.announceWarning s.warnings g).updateHold evs g

/-! ## DETECTOR (R20 to R23, R38) -/

/-- The record applied to its gantry, before the triggers see it (R23 steps 1 to 5). -/
def State.recordTraffic (s : State) (b : Bytes) : State :=
  { s with
    traffic := s.traffic.set (u8At b 0)
      (applyRecord s.params (s.bands.getD []) (s.trafficAt (u8At b 0)) (u8At b 1)
        ((lanesTo s.params.laneCount).map (laneEntry b))) }

/-- The warning table's demands, or the band of gantry g, differ from those of an earlier state (R38, R63). -/
def State.demandMoved (s t : State) (g : Nat) : Bool :=
  decide ((t.trafficAt g).band ≠ (s.trafficAt g).band) || decide (warningDemands t.warnings ≠ warningDemands s.warnings)

/-- A record applied: the band and the warning changes reach the speed plan and the aspect table as one change; a record that
changes neither causes no run (R38, R63). -/
def State.applyDetector (s : State) (b : Bytes) : State :=
  let t := (s.recordTraffic b).evaluateGantry (u8At b 0)
  if s.demandMoved t (u8At b 0) then t.afterSources true else t

def detectorEffect (b : Bytes) (s : State) : Answer :=
  if s.operating ≠ .running then refuse .wrongState s
  else
    match firstBad (detectorFields s b) with
    | some f => badValue f s
    | none =>
      if (s.trafficAt (u8At b 0)).lastSeq = some (u8At b 1) then refuse .staleSeq s
      else
        let t := s.applyDetector b
        accept (enc8 (t.trafficAt (u8At b 0)).band) t

/-! ## TRIGGER_DISABLE, TRIGGER_REARM, WARNING_CLEAR (R43, R53, R60) -/

/-- R43: a warning after a program left its owners: caps recomputed, the hold lowered to the new largest hold. -/
def State.disown (s : State) (p : Nat) (w : Warning) : Warning :=
  if w.owners.contains p then
    let owners := w.owners.filter (fun q => q != p)
    if owners.isEmpty then { w with owners := [] }
    else { s.reown w owners with hold := min w.hold (s.ownersHold owners) }
  else w

/-- R43: the program leaves every warning it owns; those left without owners end, in rising gantry order. -/
def State.disableProgram (s : State) (p : Nat) : State :=
  let s1 := { s.setSlot p { s.slot p with enabled := false } with insts := s.insts.filter (fun i => i.program != p) }
  let left := s.warnings.map (s1.disown p)
  State.reports { s1 with warnings := left.filter (fun w => !w.owners.isEmpty) }
    ((left.filter (fun w => w.owners.isEmpty)).map (endReport s.clock .ownersDisabled))

/-- R43. The reply to a disabled or unset program carries the count 0 (DEDUCED, notes/assumptions/19.md). -/
def triggerDisableEffect (b : Bytes) (s : State) : Answer :=
  if 7 < u8At b 0 then badValue 1 s
  else if !(s.slot (u8At b 0)).enabled then accept (enc8 0) s
  else
    let t := s.disableProgram (u8At b 0)
    accept (enc8 (s.warnings.length - t.warnings.length))
      (if warningDemands t.warnings = warningDemands s.warnings then t else t.afterSources true)

/-- R53: the FIRED records of the program. -/
def firedInsts (s : State) (p : Nat) : List TrigInst := s.insts.filter (fun i => i.program == p && i.fired)

/-- R53: a FIRED record of the program becomes IDLE, counter at the preset, window 0. -/
def rearmInst (p preset : Nat) (i : TrigInst) : TrigInst :=
  if i.program = p ∧ i.fired then { i with counter := preset, window := 0, fired := false } else i

def State.presetOf (s : State) (p : Nat) : Nat :=
  match (s.slot p).fields with
  | some prog => prog.preset
  | none => 0

def triggerRearmEffect (b : Bytes) (s : State) : Answer :=
  if 7 < u8At b 0 then badValue 1 s
  else
    accept (enc8 (firedInsts s (u8At b 0)).length)
      { s with insts := s.insts.map (rearmInst (u8At b 0) (s.presetOf (u8At b 0))) }

def warningClearEffect (b : Bytes) (s : State) : Answer :=
  if s.params.gantryCount ≤ u8At b 0 then badValue 1 s
  else
    match warningAt s.warnings (u8At b 0) with
    | none => accept (enc8 0) s
    | some w => accept (enc8 1) ((s.endWarning w .cleared).afterSources true)

end Sys2Proof.Machine
end

