-- ==== Sys2Proof/Machine/MapBlock.lean ====
section
/-! DEFINITION. The map block (chapter 1): the map requests, the operator cap, START and STOP; and the operator legends
(R118, R119). -/

namespace Sys2Proof.Machine

open Sys2Proof

/-! ## MAP_PARAMS (R1, R2) -/

/-- The fifteen parameters of a body (10.3). -/
def paramsAt (b : Bytes) : Params where
  gantryCount := u8At b 0
  laneCount := u8At b 1
  planPeriod := u8At b 2
  maxDrop := u8At b 3
  holdUp := u8At b 4
  staleLimit := u8At b 5
  kSpeed := u8At b 6
  kOcc := u8At b 7
  legendReach := u16At b 8
  congestionBand := u8At b 10
  failLimit := u8At b 11
  recoverCount := u8At b 12
  degradePercent := u8At b 13
  refreshPeriod := u16At b 14
  establishLimit := u16At b 16

/-- The ranges of 1.2. -/
def paramFields (p : Params) : List FieldCheck :=
  [(1, p.gantryCount == 0 || within 2 32 p.gantryCount),
   (2, p.laneCount == 0 || within 2 5 p.laneCount),
   (3, within 5 60 p.planPeriod),
   (4, p.maxDrop == 20 || p.maxDrop == 30 || p.maxDrop == 40),
   (5, within 1 15 p.holdUp),
   (6, within 1 10 p.staleLimit),
   (7, within 1 16 p.kSpeed),
   (8, within 1 16 p.kOcc),
   (9, within 0 5000 p.legendReach),
   (10, within 1 6 p.congestionBand),
   (11, within 2 8 p.failLimit),
   (12, within 1 8 p.recoverCount),
   (13, within 1 50 p.degradePercent),
   (14, within 10 300 p.refreshPeriod),
   (15, within 30 600 p.establishLimit)]

/-- The gantry table of the new size: every record deleted where the lane count changes, otherwise those at and above the
new G; new indices undefined (R2). -/
def resizeTable (old : Params) (new : Params) (table : List (Option GantryRec)) : List (Option GantryRec) :=
  if new.laneCount ≠ old.laneCount then List.replicate new.gantryCount none
  else table.take new.gantryCount ++ List.replicate (new.gantryCount - table.length) none

def mapParamsEffect (b : Bytes) (s : State) : Answer :=
  if s.operating = .running then refuse .wrongState s
  else
    match firstBad (paramFields (paramsAt b)) with
    | some f => badValue f s
    | none => accept [] { s with gantries := resizeTable s.params (paramsAt b) s.gantries, params := paramsAt b }

/-! ## MAP_GANTRY (R3) -/

/-- The line and address of an entry at an offset; line A stands where the line byte names none. -/
def panelAddrAt (b : Bytes) (offset : Nat) : PanelAddr := ⟨(lineOf (u8At b offset)).getD .a, u8At b (offset + 1)⟩

/-- The offset of the message panel's flag after n lane entries. -/
def messageOffset (n : Nat) : Nat := 4 + 2 * n

def mapGantryFields (s : State) (b : Bytes) : List FieldCheck :=
  [(1, decide (u8At b 0 < s.params.gantryCount)), (2, true),
   (3, s.params.laneCount != 0 && u8At b 3 == s.params.laneCount)]
  ++ (lanesTo (u8At b 3)).flatMap (fun l =>
      [(2 * l + 2, (lineOf (u8At b (2 * l + 2))).isSome), (2 * l + 3, within 1 126 (u8At b (2 * l + 3)))])
  ++ [(14, within 0 1 (u8At b (messageOffset (u8At b 3)))),
      (15, u8At b (messageOffset (u8At b 3)) != 1 || (lineOf (u8At b (messageOffset (u8At b 3) + 1))).isSome),
      (16, u8At b (messageOffset (u8At b 3)) != 1 || within 1 126 (u8At b (messageOffset (u8At b 3) + 2)))]

/-- The gantry record of a body. -/
def gantryAt (b : Bytes) : GantryRec where
  chainage := u16At b 1
  lanes := (lanesTo (u8At b 3)).map (fun l => panelAddrAt b (2 * l + 2))
  message :=
    if u8At b (messageOffset (u8At b 3)) = 1 then some (panelAddrAt b (messageOffset (u8At b 3) + 1)) else none

def mapGantryEffect (b : Bytes) (s : State) : Answer :=
  if s.operating = .running then refuse .wrongState s
  else
    match firstBad (mapGantryFields s b) with
    | some f => badValue f s
    | none => accept [] { s with gantries := s.gantries.set (u8At b 0) (some (gantryAt b)) }

/-! ## MAP_SPEEDS (R4) -/

/-- The values of a body. -/
def speedsAt (b : Bytes) : List Nat := (b.drop 1).map BitVec.toNat

/-- Each value a multiple of 10 within 20..130, and above the one before it. -/
def speedFields : Nat → Option Nat → List Nat → List FieldCheck
  | _, _, [] => []
  | field, before, v :: rest =>
    (field, within 20 130 v && v % 10 == 0 && (match before with
      | some u => decide (u < v)
      | none => true)) :: speedFields (field + 1) (some v) rest

def mapSpeedsEffect (b : Bytes) (s : State) : Answer :=
  if s.operating = .running then refuse .wrongState s
  else
    match firstBad ((1, within 2 8 (u8At b 0)) :: speedFields 2 none (speedsAt b)) with
    | some f => badValue f s
    | none => accept [] { s with speeds := some (speedsAt b) }

/-! ## MAP_BANDS (R5) -/

/-- Band number n of a body (10.3). -/
def bandAt (b : Bytes) (n : Nat) : Band where
  occOn := u16At b (7 * n - 6)
  occOff := u16At b (7 * n - 4)
  spdOn := u8At b (7 * n - 2)
  spdOff := u8At b (7 * n - 1)
  limit := u8At b (7 * n)

def bandFields (b : Bytes) (n : Nat) : List FieldCheck :=
  [(5 * n - 3, within 0 1000 (bandAt b n).occOn), (5 * n - 2, within 0 1000 (bandAt b n).occOff),
   (5 * n - 1, within 0 250 (bandAt b n).spdOn), (5 * n, within 0 250 (bandAt b n).spdOff), (5 * n + 1, true)]

def mapBandsEffect (b : Bytes) (s : State) : Answer :=
  if s.operating = .running then refuse .wrongState s
  else
    match firstBad ((1, within 1 6 (u8At b 0)) :: (lanesTo (u8At b 0)).flatMap (bandFields b)) with
    | some f => badValue f s
    | none => accept [] { s with bands := some ((lanesTo (u8At b 0)).map (bandAt b)) }

/-! ## OPERATOR_CAP (R6), OPERATOR_LEGEND (R118) -/

def operatorCapEffect (b : Bytes) (s : State) : Answer :=
  if u8At b 0 = s.operatorCap then accept [] s
  else accept [] (State.afterSources { s with operatorCap := u8At b 0 } true)

/-- The gantry has a message panel in the map. -/
def State.hasMessage (s : State) (g : Nat) : Bool :=
  match s.gantry? g with
  | some r => r.message.isSome
  | none => false

/-- Field 2 of OPERATOR_LEGEND: 0, or 5..15. -/
def legendLegal (code : Nat) : Bool := code == 0 || within 5 15 code

def operatorLegendEffect (b : Bytes) (s : State) : Answer :=
  match firstBad [(1, decide (u8At b 0 < s.params.gantryCount) && s.hasMessage (u8At b 0)), (2, legendLegal (u8At b 1))] with
  | some f => badValue f s
  | none =>
    if u8At b 1 = s.legendAt (u8At b 0) then accept [] s
    else accept [] (State.afterSources { s with legends := s.legends.set (u8At b 0) (u8At b 1) } false)

/-! ## START: validation (R10) -/

/-- A failed check: the item code and the item detail. -/
abbrev MapFault := Nat × Nat

/-- The first of several checks that fails. -/
def firstFault : List (Bool × MapFault) → Option MapFault
  | [] => none
  | (holds, f) :: rest => if holds then firstFault rest else some f

/-- The records of a table every index of which is defined. -/
def definedRecs (table : List (Option GantryRec)) : List GantryRec := table.filterMap id

/-- Item 3: the lowest undefined index. -/
def undefinedIndex (gantryCount : Nat) (table : List (Option GantryRec)) : Option Nat :=
  (List.range gantryCount).find? (fun g => ((table[g]?).join).isNone)

/-- Items 4 and 5, examined together at each g upward (R10). -/
def chainageChecks : Nat → List GantryRec → List (Bool × MapFault)
  | g, x :: y :: rest =>
    (decide (x.chainage < y.chainage), (4, g)) :: (decide (x.chainage + 100 ≤ y.chainage), (5, g))
      :: chainageChecks (g + 1) (y :: rest)
  | _, _ => []

/-- The panels of a gantry: lane 1..N, then the message panel. -/
def gantryPanels (g : Nat) (r : GantryRec) : List (PanelId × PanelAddr) :=
  (r.lanes.zipIdx.map (fun x => (⟨g, x.2 + 1⟩, x.1)))
    ++ (match r.message with
        | some a => [(⟨g, 0⟩, a)]
        | none => [])

/-- The panels of the map, gantry index upward (R10 item 6, R12). -/
def mapPanels (table : List (Option GantryRec)) : List (PanelId × PanelAddr) :=
  (table.zipIdx).flatMap (fun x =>
    match x.1 with
    | some r => gantryPanels x.2 r
    | none => [])

/-- Item 6: the gantry of the first panel whose pair was already seen. -/
def repeatedPair : List PanelAddr → List (PanelId × PanelAddr) → Option Nat
  | _, [] => none
  | seen, (p, a) :: rest => if seen.contains a then some p.gantry else repeatedPair (a :: seen) rest

/-- Item 7: the first line with more than 64 panels. -/
def crowdedLine (panels : List (PanelId × PanelAddr)) : Option Nat :=
  (lineIds.find? (fun l => decide (Config.linePanels < (panels.filter (fun x => x.2.line == l)).length))).map
    (fun l => (lineCode l).toNat)

/-- Item 10: each gap of the set, with the position of its upper value. -/
def gapChecks (maxDrop : Nat) : Nat → List Nat → List (Bool × MapFault)
  | position, x :: y :: rest => (decide (y - x ≤ maxDrop), (10, position)) :: gapChecks maxDrop (position + 1) (y :: rest)
  | _, _ => []

/-- Items 11 to 14 of band b, `above` being the limit of the band before it. -/
def bandChecks (set : List Nat) : Nat → Option Nat → List Band → List (Bool × MapFault)
  | _, _, [] => []
  | b, above, x :: rest =>
    (set.contains x.limit, (11, b))
      :: ((match above with
          | some u => decide (x.limit ≤ u)
          | none => true), (12, b))
      :: (decide (x.occOff < x.occOn), (13, b)) :: (decide (x.spdOn < x.spdOff), (14, b))
      :: bandChecks set (b + 1) (some x.limit) rest

/-- A check that names what failed. -/
def noneFound (item : Nat) (found : Option Nat) : Bool × MapFault := (found.isNone, (item, found.getD 0))

/-- The fourteen items in order; none when the map holds together. -/
def State.mapFault (s : State) : Option MapFault :=
  firstFault
    ([(decide (s.params.gantryCount ≠ 0), (1, 0)), (decide (s.params.laneCount ≠ 0), (2, 0)),
      noneFound 3 (undefinedIndex s.params.gantryCount s.gantries)]
     ++ chainageChecks 1 (definedRecs s.gantries)
     ++ [noneFound 6 (repeatedPair [] (mapPanels s.gantries)), noneFound 7 (crowdedLine (mapPanels s.gantries)),
         (s.speeds.isSome, (8, 0)), (s.bands.isSome, (9, 0))]
     ++ gapChecks s.params.maxDrop 2 s.displayable
     ++ bandChecks s.displayable 1 none (s.bands.getD []))

/-! ## START: success (R11, R12, R119) -/

/-- The working records of every enabled program (R11). -/
def State.startInsts (s : State) : List TrigInst :=
  programNumbers.flatMap (fun p =>
    match s.enabledProgram p with
    | none => []
    | some prog => newInsts s.params.gantryCount p prog)

/-- Every panel of the map, HEALTHY and unconfirmed (R12). -/
def State.startPanels (s : State) : List PanelRec := (mapPanels s.gantries).map (fun x => PanelRec.fresh x.1 x.2)

/-- R119: the operator legend of every index at which the map has no message panel becomes 0. -/
def State.startLegends (s : State) : List Nat :=
  s.legends.zipIdx.map (fun x => if s.hasMessage x.2 then x.1 else 0)

/-- R12: a SAFETY entry for every panel of a line, in map order. The queues are empty while STOPPED (R13, R144). -/
def startQueue (panels : List PanelRec) (l : LineId) : List PendEntry :=
  (panels.filter (fun r => r.addr.line == l)).map (fun r => ⟨r.addr.address, .safety⟩)

def startLine (panels : List PanelRec) (l : LineId) (line : Line) : Line := { line with queue := startQueue panels l }

def PerLine.mapWith {α : Type} (p : PerLine α) (f : LineId → α → α) : PerLine α := ⟨f .a p.a, f .b p.b, f .c p.c, f .d p.d⟩

/-- Everything R11 sets before the first run. -/
def State.startBlocks (s : State) (initial : Nat) : State :=
  { s with
    operating := .running
    clock := 0
    planTimer := 0
    traffic := List.replicate s.params.gantryCount (TrafficRec.fresh s.params.laneCount)
    insts := s.startInsts
    warnings := []
    closures := []
    arrowMap := []
    crossMap := []
    plan := List.replicate s.params.gantryCount (PlanRec.from (roundInto s.displayable initial))
    legends := s.startLegends
    panels := s.startPanels
    lines := s.lines.mapWith (startLine s.startPanels) }

/-- START succeeds: the blocks set going, the first run with the initial limit as a demand (R70), and every entry computed
(R109). -/
def State.startRun (s : State) (initial : Nat) : State :=
  let t := (s.startBlocks initial).runPlan false (some initial)
  { t with aspects := t.panels.map (fun r => t.freshEntry r.panel) }

def startEffect (b : Bytes) (s : State) : Answer :=
  if s.operating = .running then refuse .wrongState s
  else
    match s.mapFault with
    | some f => (s, [Result.badMap.code, byteOf f.1, byteOf f.2])
    | none => accept [] (s.startRun (u8At b 0))

/-! ## STOP (R13, R61) -/

def stopLine (_l : LineId) (line : Line) : Line := { line with queue := [] }

/-- The traffic state, the plan, the working records and the queues go; every warning ends with its report (R13, R61). -/
def State.stopBlocks (s : State) : State :=
  State.reports
    { s with
      operating := .stopped
      traffic := []
      insts := []
      warnings := []
      plan := []
      lines := s.lines.mapWith stopLine }
    (s.warnings.map (endReport s.clock .stopped))

def stopEffect (_b : Bytes) (s : State) : Answer :=
  if s.operating = .stopped then accept [] s
  else if !s.closures.isEmpty then refuse .closuresPresent s
  else accept [] s.stopBlocks

end Sys2Proof.Machine
end

