-- ==== Sys2Proof/Machine/Query.lean ====
section
/-! DEFINITION. The requests that tell (IDENTIFY, STATUS, GANTRY_QUERY, PANEL_QUERY) and RESET's acting (R168 to R170). -/

namespace Sys2Proof.Machine

open Sys2Proof

/-! ## IDENTIFY (R168) -/

/-- A string: a length byte, then the characters (R177). -/
def encString (chars : Bytes) : Bytes := byteOf chars.length :: chars

def identifyEffect (_b : Bytes) (s : State) : Answer :=
  accept (encString Config.vendor ++ encString Config.part ++ [Config.revision, s.resetCause.code]) s

/-! ## STATUS (R169) -/

/-- The set of enabled programs. -/
def State.enabledPrograms (s : State) : List Nat := programNumbers.filter (fun p => (s.slot p).enabled)

def encLineStatus (l : Line) : Bytes :=
  [l.mode.code] ++ encBool l.quiescePending ++ [l.supply.code] ++ enc8 l.queue.length
    ++ enc8 (l.queue.filter (fun e => e.cls == .safety)).length

/-- The capture: state, held and written, and when FROZEN the freeze time and source. -/
def encCapture (h : History) : Bytes := encBool h.frozen.isSome ++ encHeld h ++ encFreeze h.frozen

def encLinkStatus (l : Link) : Bytes :=
  enc8 l.replies.length ++ enc8 l.urgent.length ++ enc8 l.routine.length ++ enc16 l.frameDiscards
    ++ enc16 l.requestDiscards ++ encBool l.overrun ++ encBool l.reportsLost

/-- The snapshot of STATUS (R169). DESIGN CHOICE: no count byte stands before the items of the four lines
(notes/assumptions/14.md). -/
def State.snapshot (s : State) : Bytes :=
  [s.operating.code] ++ encClock s.clock ++ [s.resetCause.code] ++ enc8 s.params.gantryCount ++ enc8 s.params.laneCount
    ++ enc8 s.operatorCap ++ enc8 s.closures.length ++ enc8 s.warnings.length ++ encSet 0 s.enabledPrograms
    ++ lineIds.flatMap (fun l => encLineStatus (s.lines.get l)) ++ encCapture s.history ++ encLinkStatus s.link

def statusEffect (_b : Bytes) (s : State) : Answer := accept s.snapshot s

/-! ## RESET, first part (R170) -/

def resetEffect (_b : Bytes) (s : State) : Answer := accept [] { s with link := { s.link with resetPending := true } }

/-! ## GANTRY_QUERY (R40, R84, R123, R147) -/

/-- The plan section: the mark that a plan exists, then the record and whether the gantry is dark (R84). -/
def State.encPlan (s : State) (g : Nat) : Bytes :=
  if s.operating = .running then
    [1] ++ enc8 (s.planAt g).demand ++ encBinding (s.planAt g).binding ++ enc8 (s.planAt g).rounded
      ++ encBool (s.planAt g).clamped ++ enc8 (s.planAt g).target ++ enc8 (s.planAt g).shown ++ enc8 (s.planAt g).riseWait
      ++ [(s.planAt g).cause.code] ++ encBool (darkAt s.panels g)
  else List.replicate 10 0

/-- The items of a panel record (R125), but for its line and address. -/
def encPanelItems (r : PanelRec) : Bytes :=
  encOpt 3 encAspect r.confirmed ++ [r.health.code] ++ enc8 r.failCount ++ enc8 r.goodCount ++ encBool r.degraded
    ++ encOpt 1 enc8 r.pixel ++ encOpt 1 (fun b => [b]) r.fault ++ encOpt 1 (fun o => [o.code]) r.lastOutcome
    ++ encClock r.lastTime

/-- How many bytes the items of a panel record take. -/
def panelItemsWidth : Nat := 18

/-- The class and the position of an address's entry in a queue, 1 for the front (R147). -/
def entryPlace (queue : List PendEntry) (address : Nat) : Option (EntryClass × Nat) :=
  (queue.zipIdx.find? (fun x => x.1.address == address)).map (fun x => (x.1.cls, x.2 + 1))

def encPlace (x : EntryClass × Nat) : Bytes := [x.1.code] ++ enc8 x.2

/-- A transaction is in flight for an address. -/
def inFlightFor (line : Line) (address : Nat) : Bool :=
  match line.inFlight with
  | some t => t.address == address
  | none => false

/-- The desired aspect and, where there is one, its cause (R123). -/
def encDesired (e : Option AspectEntry) : Bytes :=
  encOpt 3 encAspect (e.map (·.desired)) ++
    (match e with
     | some x => encCause x.cause
     | none => [])

/-- The panel section (R147): whether a record is held, the line and address (the record's, or the current map's), the
record's items, the pending entry, whether a transaction is in flight, the desired aspect and cause. -/
def State.encPanel (s : State) (p : PanelId) (mapped : PanelAddr) : Bytes :=
  let held := panelAt s.panels p.gantry p.panel
  let addr := match held with
    | some r => r.addr
    | none => mapped
  encBool held.isSome ++ [lineCode addr.line] ++ enc8 addr.address
    ++ (match held with
        | some r => encPanelItems r ++ encOpt 2 encPlace (entryPlace (s.lines.get addr.line).queue addr.address)
            ++ encBool (inFlightFor (s.lines.get addr.line) addr.address)
        | none => List.replicate (panelItemsWidth + 4) 0)
    ++ encDesired (entryAt s.aspects p)

/-- Index below G and defined (R40). -/
def State.gantryDefined (s : State) (g : Nat) : Option GantryRec :=
  if g < s.params.gantryCount then s.gantry? g else none

/-- The panel sections of a gantry: lanes 1..N, then the message panel (R147). DESIGN CHOICE: no count byte stands before them
in the reply, since R177's list row does not name them (notes/assumptions/14.md). -/
def State.gantrySections (s : State) (g : Nat) (r : GantryRec) : List Bytes :=
  (gantryPanels g r).map (fun x => s.encPanel x.1 x.2)

/-- The three sections in order, and the operator legend after them (R123; DESIGN CHOICE, notes/assumptions/16.md). -/
def gantryQueryEffect (b : Bytes) (s : State) : Answer :=
  match s.gantryDefined (u8At b 0) with
  | none => badValue 1 s
  | some r =>
    accept (carriedSections (s.encTraffic (u8At b 0) :: s.encPlan (u8At b 0)
      :: s.gantrySections (u8At b 0) r ++ [enc8 (s.legendAt (u8At b 0))])) s

/-! ## PANEL_QUERY (R147) -/

/-- The line and address the current map gives a panel of a gantry. -/
def mappedPanel (r : GantryRec) (panel : Nat) : Option PanelAddr := if panel = 0 then r.message else r.lanes[panel - 1]?

def panelQueryEffect (b : Bytes) (s : State) : Answer :=
  match s.gantryDefined (u8At b 0) with
  | none => badValue 1 s
  | some r =>
    match mappedPanel r (u8At b 1) with
    | none => badValue 2 s
    | some a => accept (s.encPanel ⟨u8At b 0, u8At b 1⟩ a) s

end Sys2Proof.Machine
end

