-- ==== Sys2Proof/Machine/Events.lean ====
section
/-! DEFINITION. The meanings of the time and panel-line commands. A command sent at a moment at which the spec says its event
cannot occur changes nothing (DESIGN CHOICE, notes/assumptions/2.md). -/

namespace Sys2Proof.Machine

open Sys2Proof

/-! ## Time (R8, R9, R31, R65, R97, R102, R129) -/

/-- R8: while RUNNING the corridor clock advances by one, modulo 2^32, and with it the plan-period timer (R9). -/
def execCorridorClockAdvance (s : State) : Host.Outcome State Fault Refusal :=
  .next (if s.operating = .running then { s with clock := s.clock + 1, planTimer := s.planTimer + 1 } else s)

/-- R9: ageing at every gantry (R31, R32), and a timed run (R65). -/
def State.expirePlanPeriod (s : State) : State :=
  let t := { s with
    planTimer := s.planTimer - s.params.planPeriod
    traffic := s.traffic.map (ageRec s.params.staleLimit) }
  State.transmit (State.endReleased (State.resolve (t.runPlan true none)))

/-- The timer expires every P seconds of the corridor clock (R9). -/
def execPlanPeriodExpiry (s : State) : Host.Outcome State Fault Refusal :=
  .next (if s.operating = .running ∧ s.params.planPeriod ≤ s.planTimer then s.expirePlanPeriod else s)

def execDwellExpiry (id : Nat) (s : State) : Host.Outcome State Fault Refusal := .next (s.expireDwell id)

def execEstablishLimitExpiry (id : Nat) (s : State) : Host.Outcome State Fault Refusal := .next (s.expireEstablish id)

/-- R129: the refresh entries due on a line. -/
def execRefreshDue (line : LineId) (s : State) : Host.Outcome State Fault Refusal :=
  .next (if s.operating = .running then s.refresh line (refreshDueNow s.clock s.params.refreshPeriod) else s)

/-! ## Transactions (R128, R130, R131, R132) -/

def execTransactionStart (line : LineId) (s : State) : Host.Outcome State Fault Refusal := .next (s.startTransaction line)

/-- R130: the request has been sent; the reply window opens. -/
def execRequestSent (line : LineId) (s : State) : Host.Outcome State Fault Refusal := .next (s.advancePhase line .send .wait)

/-- R130: a start bit while the window is open begins the reply. -/
def execReplyBegun (line : LineId) (s : State) : Host.Outcome State Fault Refusal := .next (s.advancePhase line .wait .receive)

/-- R130, R180: the reply's characters have arrived and are judged. -/
def execReplyComplete (line : LineId) (chars : List RxChar) (s : State) : Host.Outcome State Fault Refusal :=
  .next (s.endIn line .receive (fun t panel => judge t panel chars))

/-- R130: a reply that ends short of seven characters is NO_REPLY. -/
def execReplyCharacterTimeout (line : LineId) (s : State) : Host.Outcome State Fault Refusal :=
  .next (s.endIn line .receive (fun _ _ => Judged.noReply))

/-- R130, R132: no reply begins within the window. -/
def execReplyWindowEnd (line : LineId) (s : State) : Host.Outcome State Fault Refusal :=
  .next (s.endIn line .wait (fun _ _ => Judged.noReply))

def execGapEnd (line : LineId) (s : State) : Host.Outcome State Fault Refusal := .next (s.endGap line)

/-! ## Supply (R139, R141) -/

def execSupplyFallLow (line : LineId) (level : Nat) (s : State) : Host.Outcome State Fault Refusal :=
  .next (s.followSense line level)

def execSupplyRiseNormal (line : LineId) (level : Nat) (s : State) : Host.Outcome State Fault Refusal :=
  .next (s.followSense line level)

end Sys2Proof.Machine
end

