-- ==== Sys2Proof/Machine/Receiver.lean ====
section
/-! DEFINITION. The meanings of the requests, and the receiver: how characters become frames and frames become requests
(chapter 9). -/

namespace Sys2Proof.Machine

open Sys2Proof

/-- The effect of each kind of request on the block that owns it (9.7). -/
def requestEffect (k : RequestKind) : Bytes → State → Answer :=
  match k with
  | .identify => identifyEffect
  | .status => statusEffect
  | .reset => resetEffect
  | .mapParams => mapParamsEffect
  | .mapGantry => mapGantryEffect
  | .mapSpeeds => mapSpeedsEffect
  | .mapBands => mapBandsEffect
  | .start => startEffect
  | .stop => stopEffect
  | .detector => detectorEffect
  | .triggerSet => triggerSetEffect
  | .triggerEnable => triggerEnableEffect
  | .triggerDisable => triggerDisableEffect
  | .triggerRearm => triggerRearmEffect
  | .warningClear => warningClearEffect
  | .closureSet => closureSetEffect
  | .closureRelease => closureReleaseEffect
  | .closureQuery => closureQueryEffect
  | .operatorCap => operatorCapEffect
  | .operatorLegend => operatorLegendEffect
  | .gantryQuery => gantryQueryEffect
  | .panelQuery => panelQueryEffect
  | .historyFreeze => historyFreezeEffect
  | .historyRead => historyReadEffect
  | .historyResume => historyResumeEffect
  | .lineQuiesce => lineQuiesceEffect
  | .lineResume => lineResumeEffect

/-- R161: a kind that names no request is answered UNKNOWN_KIND, with reply kind 0xFF and the request's tag. -/
def unknownReply (tag : Byte) : Frame := ⟨0xFF, tag, [Result.unknownKind.code]⟩

/-- A good frame has arrived (R160, R161). -/
def State.arriveFrame (s : State) (kind tag : Byte) (body : Bytes) : State :=
  match requestKindOf kind with
  | some k => s.take k tag body (requestEffect k)
  | none => s.arrive body (fun t => (t, unknownReply tag))

/-! ## Characters (R156, R157, R158) -/

def State.setReceiver (s : State) (r : Receiver) : State := { s with link := { s.link with rx := r } }

/-- The receiver is assembling a frame. -/
def Receiver.assembling : Receiver → Bool
  | .hunt => false
  | .header _ | .body _ _ | .check _ _ _ => true

/-- A frame in HEADER, BODY or CHECK is discarded and counted; in HUNT nothing happens (R156, R158). -/
def State.dropFrame (s : State) : State :=
  if s.nrstLow then s else if s.link.rx.assembling then s.discardFrame else s

/-- The bytes a frame's check is computed over (R174). -/
def checked (h : FrameHead) (body : Bytes) : Bytes := h.length :: h.kind :: h.tag :: h.flags :: body

/-- After the flags: BODY, or CHECK when the length is 0 (R157). -/
def afterHead (h : FrameHead) : Receiver := if h.length = 0 then .check h [] none else .body h []

/-- A header byte: the length, above 240, discards the frame; the flags byte ends the header (R157). -/
def State.headerChar (s : State) (kept : Bytes) (c : Byte) : State :=
  match kept with
  | [] => if Config.maxBody < c.toNat then s.discardFrame else s.setReceiver (.header [c])
  | [length] => s.setReceiver (.header [length, c])
  | [length, kind] => s.setReceiver (.header [length, kind, c])
  | length :: kind :: tag :: _ => s.setReceiver (afterHead ⟨length, kind, tag, c⟩)

/-- A body byte: after the length-th, CHECK (R157). -/
def State.bodyChar (s : State) (h : FrameHead) (kept : Bytes) (c : Byte) : State :=
  if h.length.toNat ≤ kept.length + 1 then s.setReceiver (.check h (kept ++ [c]) none)
  else s.setReceiver (.body h (kept ++ [c]))

/-- A check byte: after the second the CRC is tested; on failure the frame is discarded, on success the request arrives
(R157, R174). -/
def State.checkChar (s : State) (h : FrameHead) (body : Bytes) (first : Option Byte) (c : Byte) : State :=
  match first with
  | none => s.setReceiver (.check h body (some c))
  | some f =>
    if [f, c] = checkBytes (checked h body) then s.arriveFrame h.kind h.tag body else s.discardFrame

/-- A correctly received character (R157). While NRST is low none is received (R156). -/
def State.receive (s : State) (c : Byte) : State :=
  if s.nrstLow then s
  else
    match s.link.rx with
    | .hunt => if c = 0x7E then s.setReceiver (.header []) else s
    | .header kept => s.headerChar kept c
    | .body h kept => s.bodyChar h kept c
    | .check h body first => s.checkChar h body first c

/-! ## Meanings: link events -/

def execHostCharacterReceived (char : Byte) (s : State) : Host.Outcome State Fault Refusal := .next (s.receive char)

def execFramingError (s : State) : Host.Outcome State Fault Refusal := .next s.dropFrame

def execInterByteGapExpiry (s : State) : Host.Outcome State Fault Refusal := .next s.dropFrame

/-- R159: a frame whose CRC fails or whose length exceeds 240 has arrived. -/
def execFrameDiscard (s : State) : Host.Outcome State Fault Refusal := .next (if s.nrstLow then s else s.discardFrame)

/-- R160: a good frame arrives while the reply FIFO holds 4 replies. The kind is not looked at. -/
def State.discardRequest (s : State) : State :=
  if s.nrstLow ∨ s.link.resetPending ∨ s.link.replies.length < Config.replyCapacity then s
  else
    { s with link := { s.link with rx := .hunt, overrun := true, requestDiscards := countUp s.link.requestDiscards } }

def execRequestDiscard (s : State) : Host.Outcome State Fault Refusal := .next s.discardRequest

def execUnknownKind (kind tag : Byte) (body : Bytes) (s : State) : Host.Outcome State Fault Refusal :=
  .next (s.arriveFrame kind tag body)

/-! ## Meanings: requests -/

/-- R168. -/
def execIdentify (tag : Byte) (body : Bytes) (s : State) : Host.Outcome State Fault Refusal :=
  .next (s.take .identify tag body identifyEffect)

/-- R169. -/
def execStatus (tag : Byte) (body : Bytes) (s : State) : Host.Outcome State Fault Refusal :=
  .next (s.take .status tag body statusEffect)

/-- R170. -/
def execReset (tag : Byte) (body : Bytes) (s : State) : Host.Outcome State Fault Refusal :=
  .next (s.take .reset tag body resetEffect)

/-- R2. -/
def execMapParams (tag : Byte) (body : Bytes) (s : State) : Host.Outcome State Fault Refusal :=
  .next (s.take .mapParams tag body mapParamsEffect)

/-- R3. -/
def execMapGantry (tag : Byte) (body : Bytes) (s : State) : Host.Outcome State Fault Refusal :=
  .next (s.take .mapGantry tag body mapGantryEffect)

/-- R4. -/
def execMapSpeeds (tag : Byte) (body : Bytes) (s : State) : Host.Outcome State Fault Refusal :=
  .next (s.take .mapSpeeds tag body mapSpeedsEffect)

/-- R5. -/
def execMapBands (tag : Byte) (body : Bytes) (s : State) : Host.Outcome State Fault Refusal :=
  .next (s.take .mapBands tag body mapBandsEffect)

/-- R10 to R12. -/
def execStart (tag : Byte) (body : Bytes) (s : State) : Host.Outcome State Fault Refusal :=
  .next (s.take .start tag body startEffect)

/-- R13. -/
def execStop (tag : Byte) (body : Bytes) (s : State) : Host.Outcome State Fault Refusal :=
  .next (s.take .stop tag body stopEffect)

/-- R20 to R23. -/
def execDetector (tag : Byte) (body : Bytes) (s : State) : Host.Outcome State Fault Refusal :=
  .next (s.take .detector tag body detectorEffect)

/-- R41. -/
def execTriggerSet (tag : Byte) (body : Bytes) (s : State) : Host.Outcome State Fault Refusal :=
  .next (s.take .triggerSet tag body triggerSetEffect)

/-- R42. -/
def execTriggerEnable (tag : Byte) (body : Bytes) (s : State) : Host.Outcome State Fault Refusal :=
  .next (s.take .triggerEnable tag body triggerEnableEffect)

/-- R43. -/
def execTriggerDisable (tag : Byte) (body : Bytes) (s : State) : Host.Outcome State Fault Refusal :=
  .next (s.take .triggerDisable tag body triggerDisableEffect)

/-- R53. -/
def execTriggerRearm (tag : Byte) (body : Bytes) (s : State) : Host.Outcome State Fault Refusal :=
  .next (s.take .triggerRearm tag body triggerRearmEffect)

/-- R60. -/
def execWarningClear (tag : Byte) (body : Bytes) (s : State) : Host.Outcome State Fault Refusal :=
  .next (s.take .warningClear tag body warningClearEffect)

/-- R88, R89. -/
def execClosureSet (tag : Byte) (body : Bytes) (s : State) : Host.Outcome State Fault Refusal :=
  .next (s.take .closureSet tag body closureSetEffect)

/-- R103. -/
def execClosureRelease (tag : Byte) (body : Bytes) (s : State) : Host.Outcome State Fault Refusal :=
  .next (s.take .closureRelease tag body closureReleaseEffect)

/-- R107. -/
def execClosureQuery (tag : Byte) (body : Bytes) (s : State) : Host.Outcome State Fault Refusal :=
  .next (s.take .closureQuery tag body closureQueryEffect)

/-- R6. -/
def execOperatorCap (tag : Byte) (body : Bytes) (s : State) : Host.Outcome State Fault Refusal :=
  .next (s.take .operatorCap tag body operatorCapEffect)

/-- R118. -/
def execOperatorLegend (tag : Byte) (body : Bytes) (s : State) : Host.Outcome State Fault Refusal :=
  .next (s.take .operatorLegend tag body operatorLegendEffect)

/-- R40, R84, R147. -/
def execGantryQuery (tag : Byte) (body : Bytes) (s : State) : Host.Outcome State Fault Refusal :=
  .next (s.take .gantryQuery tag body gantryQueryEffect)

/-- R147. -/
def execPanelQuery (tag : Byte) (body : Bytes) (s : State) : Host.Outcome State Fault Refusal :=
  .next (s.take .panelQuery tag body panelQueryEffect)

/-- R151. -/
def execHistoryFreeze (tag : Byte) (body : Bytes) (s : State) : Host.Outcome State Fault Refusal :=
  .next (s.take .historyFreeze tag body historyFreezeEffect)

/-- R152. -/
def execHistoryRead (tag : Byte) (body : Bytes) (s : State) : Host.Outcome State Fault Refusal :=
  .next (s.take .historyRead tag body historyReadEffect)

/-- R153. -/
def execHistoryResume (tag : Byte) (body : Bytes) (s : State) : Host.Outcome State Fault Refusal :=
  .next (s.take .historyResume tag body historyResumeEffect)

/-- R142. -/
def execLineQuiesce (tag : Byte) (body : Bytes) (s : State) : Host.Outcome State Fault Refusal :=
  .next (s.take .lineQuiesce tag body lineQuiesceEffect)

/-- R143. -/
def execLineResume (tag : Byte) (body : Bytes) (s : State) : Host.Outcome State Fault Refusal :=
  .next (s.take .lineResume tag body lineResumeEffect)

end Sys2Proof.Machine
end

