-- ==== Sys2Proof/Machine/Resets.lean ====
section
/-! DEFINITION. The resets (R15 to R19, R145, R171) and the end of a frame, which may bring one (R163, R170). -/

namespace Sys2Proof.Machine

open Sys2Proof

/-- R139: the supply state taken from the sense input afresh. -/
def supplyOf (level : Nat) : Supply := if level < Config.supplyLow then .low else .normal

/-- R17, R18, R145, R171: what every reset clears; the map, the programs, the history, the reset-cause record, the pins and
the waiting commands stand. -/
def State.clearRuntime (s : State) : State :=
  { s with
    operating := .stopped
    clock := 0
    planTimer := 0
    operatorCap := 0
    traffic := []
    insts := []
    warnings := []
    plan := []
    closures := []
    arrowMap := []
    crossMap := []
    aspects := []
    legends := List.replicate 32 0
    lines := s.lines.mapWith (fun _ line => Line.rest line.supply)
    panels := []
    link := Link.rest }

/-- R16: what a power-on or supply-dip reset clears besides. -/
def State.clearAll (s : State) : State :=
  { s.clearRuntime with
    params := Params.default
    gantries := []
    speeds := none
    bands := none
    programs := List.replicate 8 ⟨none, false⟩
    history := History.empty }

/-- The supply state of every line taken afresh (R139). -/
def State.senseLines (s : State) : State :=
  { s with lines := s.lines.mapWith (fun l line => { line with supply := supplyOf (s.sense.get l) }) }

/-- The LINE_STATE reports of the lines found LOW, in the order A, B, C, D (R139). -/
def State.lowReports (s : State) : List Report :=
  (lineIds.filter (fun l => (s.lines.get l).supply == .low)).map s.lineReport

/-- The part begins again (R15, R19, R139, R171): the cause is written, the supply states are taken, RESTART and then the
LINE_STATE reports are placed, and the free transmitter makes its choice. -/
def State.restart (s : State) (cause : ResetCause) : State :=
  let t := State.senseLines { s with resetCause := cause }
  State.transmit ((t.report (.restart t.clock cause)).reports t.lowReports)

/-- R170 part 2: the reset with cause HOST_REQUEST. -/
def State.hostReset (s : State) : State := s.clearRuntime.restart .hostRequest

/-- The frame is RESET's reply OK: only one is ever placed, since no request is taken after it (R170). -/
def isResetReply (f : Frame) : Bool := f.kind == RequestKind.reset.code + 0x80 && f.body == [Result.ok.code]

/-- The last check byte of the frame under way has been sent (R163): the transmitter frees and chooses; when the frame was
RESET's reply, the reset takes effect (R170). -/
def State.endFrame (s : State) : State :=
  match s.link.tx with
  | none => s
  | some f =>
    if s.link.resetPending && isResetReply f.frame then s.hostReset
    else State.transmit { s with link := { s.link with tx := none } }

/-! ## Meanings -/

def execFrameSent (s : State) : Host.Outcome State Fault Refusal := .next s.endFrame

def execPowerOn (s : State) : Host.Outcome State Fault Refusal := .next (s.clearAll.restart .powerOn)

def execSupplyDip (s : State) : Host.Outcome State Fault Refusal := .next (s.clearAll.restart .supplyDip)

/-- R17: the reset takes effect while NRST is low. -/
def execNrstAssert (s : State) : Host.Outcome State Fault Refusal := .next { s.clearRuntime with nrstLow := true }

/-- R17, R15: the part begins again when NRST rises, with cause RESET_PIN. -/
def execNrstRelease (s : State) : Host.Outcome State Fault Refusal :=
  .next (if s.nrstLow then State.restart { s.clearRuntime with nrstLow := false } .resetPin else s)

end Sys2Proof.Machine
end

