-- ==== Sys2Proof/Machine/Dispatch.lean ====
section
/-! DEFINITION. One arm per command: each calls its meaning. -/

namespace Sys2Proof.Machine

open Sys2Proof

def exec (i : Instr) (s : State) : Host.Outcome State Fault Refusal :=
  match i with
  | .identify tag body => Sys2Proof.Machine.execIdentify tag body s
  | .status tag body => Sys2Proof.Machine.execStatus tag body s
  | .reset tag body => Sys2Proof.Machine.execReset tag body s
  | .mapParams tag body => Sys2Proof.Machine.execMapParams tag body s
  | .mapGantry tag body => Sys2Proof.Machine.execMapGantry tag body s
  | .mapSpeeds tag body => Sys2Proof.Machine.execMapSpeeds tag body s
  | .mapBands tag body => Sys2Proof.Machine.execMapBands tag body s
  | .start tag body => Sys2Proof.Machine.execStart tag body s
  | .stop tag body => Sys2Proof.Machine.execStop tag body s
  | .detector tag body => Sys2Proof.Machine.execDetector tag body s
  | .triggerSet tag body => Sys2Proof.Machine.execTriggerSet tag body s
  | .triggerEnable tag body => Sys2Proof.Machine.execTriggerEnable tag body s
  | .triggerDisable tag body => Sys2Proof.Machine.execTriggerDisable tag body s
  | .triggerRearm tag body => Sys2Proof.Machine.execTriggerRearm tag body s
  | .warningClear tag body => Sys2Proof.Machine.execWarningClear tag body s
  | .closureSet tag body => Sys2Proof.Machine.execClosureSet tag body s
  | .closureRelease tag body => Sys2Proof.Machine.execClosureRelease tag body s
  | .closureQuery tag body => Sys2Proof.Machine.execClosureQuery tag body s
  | .operatorCap tag body => Sys2Proof.Machine.execOperatorCap tag body s
  | .operatorLegend tag body => Sys2Proof.Machine.execOperatorLegend tag body s
  | .gantryQuery tag body => Sys2Proof.Machine.execGantryQuery tag body s
  | .panelQuery tag body => Sys2Proof.Machine.execPanelQuery tag body s
  | .historyFreeze tag body => Sys2Proof.Machine.execHistoryFreeze tag body s
  | .historyRead tag body => Sys2Proof.Machine.execHistoryRead tag body s
  | .historyResume tag body => Sys2Proof.Machine.execHistoryResume tag body s
  | .lineQuiesce tag body => Sys2Proof.Machine.execLineQuiesce tag body s
  | .lineResume tag body => Sys2Proof.Machine.execLineResume tag body s
  | .unknownKind kind tag body => Sys2Proof.Machine.execUnknownKind kind tag body s
  | .requestDiscard => Sys2Proof.Machine.execRequestDiscard s
  | .frameDiscard => Sys2Proof.Machine.execFrameDiscard s
  | .framingError => Sys2Proof.Machine.execFramingError s
  | .interByteGapExpiry => Sys2Proof.Machine.execInterByteGapExpiry s
  | .frameSent => Sys2Proof.Machine.execFrameSent s
  | .powerOn => Sys2Proof.Machine.execPowerOn s
  | .supplyDip => Sys2Proof.Machine.execSupplyDip s
  | .nrstAssert => Sys2Proof.Machine.execNrstAssert s
  | .nrstRelease => Sys2Proof.Machine.execNrstRelease s
  | .corridorClockAdvance => Sys2Proof.Machine.execCorridorClockAdvance s
  | .planPeriodExpiry => Sys2Proof.Machine.execPlanPeriodExpiry s
  | .dwellExpiry id => Sys2Proof.Machine.execDwellExpiry id s
  | .establishLimitExpiry id => Sys2Proof.Machine.execEstablishLimitExpiry id s
  | .refreshDue line => Sys2Proof.Machine.execRefreshDue line s
  | .transactionStart line => Sys2Proof.Machine.execTransactionStart line s
  | .requestSent line => Sys2Proof.Machine.execRequestSent line s
  | .replyComplete line chars => Sys2Proof.Machine.execReplyComplete line chars s
  | .replyCharacterTimeout line => Sys2Proof.Machine.execReplyCharacterTimeout line s
  | .replyWindowEnd line => Sys2Proof.Machine.execReplyWindowEnd line s
  | .gapEnd line => Sys2Proof.Machine.execGapEnd line s
  | .supplyFallLow line level => Sys2Proof.Machine.execSupplyFallLow line level s
  | .supplyRiseNormal line level => Sys2Proof.Machine.execSupplyRiseNormal line level s
  | .hostCharacterReceived char => Sys2Proof.Machine.execHostCharacterReceived char s
  | .replyBegun line => Sys2Proof.Machine.execReplyBegun line s

end Sys2Proof.Machine
end

