-- ==== Sys2Proof/Safety.lean ====
section
/-! DEFINITION. The terms in which claims about the block are stated: what a command answers, what it leaves alone, the
invariants the spec names, and how the characters of a frame become a request. -/

namespace Sys2Proof.Machine

open Sys2Proof

/-! ## Requests and their answers -/

/-- The command of a request of a known kind. -/
def requestInstr (k : RequestKind) (tag : Byte) (body : Bytes) : Instr :=
  match k with
  | .identify => .identify tag body
  | .status => .status tag body
  | .reset => .reset tag body
  | .mapParams => .mapParams tag body
  | .mapGantry => .mapGantry tag body
  | .mapSpeeds => .mapSpeeds tag body
  | .mapBands => .mapBands tag body
  | .start => .start tag body
  | .stop => .stop tag body
  | .detector => .detector tag body
  | .triggerSet => .triggerSet tag body
  | .triggerEnable => .triggerEnable tag body
  | .triggerDisable => .triggerDisable tag body
  | .triggerRearm => .triggerRearm tag body
  | .warningClear => .warningClear tag body
  | .closureSet => .closureSet tag body
  | .closureRelease => .closureRelease tag body
  | .closureQuery => .closureQuery tag body
  | .operatorCap => .operatorCap tag body
  | .operatorLegend => .operatorLegend tag body
  | .gantryQuery => .gantryQuery tag body
  | .panelQuery => .panelQuery tag body
  | .historyFreeze => .historyFreeze tag body
  | .historyRead => .historyRead tag body
  | .historyResume => .historyResume tag body
  | .lineQuiesce => .lineQuiesce tag body
  | .lineResume => .lineResume tag body

/-- The body length the table of R175 asks of a kind, a counted kind's from its count byte; none where the body does not
hold the count byte. -/
def neededLength (k : RequestKind) (body : Bytes) : Option Nat :=
  match k with
  | .identify | .status | .reset | .stop | .historyFreeze | .historyResume => some 0
  | .start | .triggerEnable | .triggerDisable | .triggerRearm | .warningClear | .closureRelease | .closureQuery
  | .operatorCap | .gantryQuery | .lineQuiesce | .lineResume => some 1
  | .operatorLegend | .panelQuery | .historyRead => some 2
  | .closureSet => some 7
  | .mapParams => some 18
  | .triggerSet => some 20
  | .mapGantry => body[3]?.map (fun n => 7 + 2 * n.toNat)
  | .mapSpeeds => body[0]?.map (fun n => 1 + n.toNat)
  | .mapBands => body[0]?.map (fun n => 1 + 7 * n.toNat)
  | .detector => body[2]?.map (fun n => 3 + 5 * n.toNat)

/-- The part takes a request now: NRST high, no RESET acted on, room in the reply FIFO (R156, R160, R170). -/
def State.receptive (s : State) : Prop :=
  s.nrstLow = false ∧ s.link.resetPending = false ∧ s.link.replies.length < 4

/-- The frames the host is sent next, in order: the frame under way, then the reply FIFO (R163). -/
def State.outgoing (s : State) : List Frame := (s.link.tx.map (·.frame)).toList ++ s.link.replies

/-- The reply `f` joins the FIFO and a free transmitter makes its choice: a reply goes before any report, and the frame that
starts carries OVERRUN and clears it (R161 to R164). A frame under way is not disturbed. That a request command leaves the
receiver in HUNT, whatever frame it was assembling, is the model's choice (notes/assumptions/6.md). -/
def Replies (s t : State) (f : Frame) : Prop :=
  t.outgoing = s.outgoing ++ [f] ∧ t.link.rx = .hunt
  ∧ t.link.frameDiscards = s.link.frameDiscards ∧ t.link.requestDiscards = s.link.requestDiscards
  ∧ (∀ x, s.link.tx = some x → t.link.tx = some x ∧ t.link.overrun = s.link.overrun)
  ∧ (s.link.tx = none → t.link.overrun = false ∧ ∃ g, t.link.tx = some ⟨g, s.link.overrun, false⟩)

/-- The reports `rs` are placed in the report queue in this order, each as `Placing` says, and nothing else happens to the
queue. -/
def Reported (s t : State) (rs : List Report) : Prop :=
  t.link.urgent = (rs.foldl Link.place s.link).urgent ∧ t.link.routine = (rs.foldl Link.place s.link).routine
  ∧ t.link.reportsLost = (rs.foldl Link.place s.link).reportsLost

/-- The two states agree in everything but the link port. -/
def SameBlocks (s t : State) : Prop := { t with link := s.link } = s

/-- The command completes: the blocks are as in `u`, the reports `rs` are placed, and the reply of this kind, tag and body is
sent or waits its turn. -/
def Acts (i : Instr) (s : State) (kind tag : Byte) (body : Bytes) (u : State) (rs : List Report) : Prop :=
  ∃ t, exec i s = .next t ∧ SameBlocks u t ∧ Replies s t ⟨kind, tag, body⟩ ∧ Reported s t rs
    ∧ t.link.resetPending = s.link.resetPending

/-- The command is answered and has no effect besides (R167). -/
def OnlyAnswers (i : Instr) (s : State) (kind tag : Byte) (body : Bytes) : Prop := Acts i s kind tag body s []

/-- R163, R164, R170: the choice of a free transmitter, from `s` to `t`: the oldest reply; else, unless RESET has been acted on,
the oldest urgent report, else the oldest routine report; else none. What starts carries OVERRUN, a report REPORTS_LOST too, and
what is carried is cleared. -/
def Chooses (s t : State) : Prop :=
  (∀ f rest, s.link.replies = f :: rest →
    t = { s with link := { s.link with replies := rest, tx := some ⟨f, s.link.overrun, false⟩, overrun := false } })
  ∧ (∀ r rest, s.link.replies = [] → s.link.resetPending = false → s.link.urgent = r :: rest →
    t = { s with link := { s.link with
      urgent := rest, tx := some ⟨⟨r.kind, 0, r.body s.clock s.panels⟩, s.link.overrun, s.link.reportsLost⟩
      overrun := false, reportsLost := false } })
  ∧ (∀ r rest, s.link.replies = [] → s.link.resetPending = false → s.link.urgent = [] → s.link.routine = r :: rest →
    t = { s with link := { s.link with
      routine := rest, tx := some ⟨⟨r.kind, 0, r.body s.clock s.panels⟩, s.link.overrun, s.link.reportsLost⟩
      overrun := false, reportsLost := false } })
  ∧ (s.link.replies = [] → (s.link.resetPending = true ∨ (s.link.urgent = [] ∧ s.link.routine = [])) → t = s)

/-- R165, R166: the placing of the report `r`, from `l` to `l'`. An urgent report, where the queue holds 32, takes the room of the
oldest routine report, and is dropped where none is held; a routine report is dropped there; every eviction and drop sets
REPORTS_LOST. A GANTRY_SHOWN is not placed while one is queued for its gantry. Nothing else of the link changes. -/
def Placing (l : Link) (r : Report) (l' : Link) : Prop :=
  let full := 32 ≤ l.urgent.length + l.routine.length
  let urgent := (∀ g, r ≠ .gantryShown g) ∧ ∀ c e w, r ≠ .warningState c e w
  let queued := ∃ g, r = .gantryShown g ∧ .gantryShown g ∈ l.routine
  (urgent → ¬ full → l' = { l with urgent := l.urgent ++ [r] })
  ∧ (urgent → full → ∀ oldest rest, l.routine = oldest :: rest →
      l' = { l with urgent := l.urgent ++ [r], routine := rest, reportsLost := true })
  ∧ (urgent → full → l.routine = [] → l' = { l with reportsLost := true })
  ∧ (queued → l' = l)
  ∧ (¬ urgent → ¬ queued → ¬ full → l' = { l with routine := l.routine ++ [r] })
  ∧ (¬ urgent → ¬ queued → full → l' = { l with reportsLost := true })

/-- An event that is no request completes: the blocks are as in `u`, the reports `rs` are placed (`Placing`), and a free
transmitter makes its choice (R163, `Chooses`). -/
def Happens (i : Instr) (s u : State) (rs : List Report) : Prop :=
  exec i s = .next (State.transmit { u with link := rs.foldl Link.place s.link })

/-- The command has no effect besides its answer, whose body is these sections one after the other where a frame can hold them
(R173). Where it cannot, the first sections that fit stand whole, and what follows them is free (the model's choice,
notes/assumptions/3.md). -/
def Tells (i : Instr) (s : State) (kind tag : Byte) (sections : List Bytes) : Prop :=
  ∃ body, OnlyAnswers i s kind tag body ∧ body.length ≤ 240
    ∧ (sections.flatten.length ≤ 240 → body = sections.flatten)
    ∧ ∀ n, (sections.take n).flatten.length ≤ 240 → (sections.take n).flatten <+: body

/-- Of these fields, each with its number and whether it is in its range, the first out of range refuses the request: BAD_VALUE
with its number, and no effect (R1, R167, R176). -/
def RefusesFirst (i : Instr) (s : State) (kind tag : Byte) (fields : List (Nat × Bool)) : Prop :=
  ∀ n, (fields.find? (fun f => !f.2)).map Prod.fst = some n → OnlyAnswers i s kind tag [0x04, byteOf n]

/-! ## Characters (R157) -/

/-- The characters of a frame arrive one after the other, with no gap and no error. -/
def feed : Bytes → State → Host.Outcome State Fault Refusal
  | [], s => .next s
  | c :: rest, s =>
    match exec (.hostCharacterReceived c) s with
    | .next t => feed rest t
    | .fault r => .fault r
    | .refused r => .refused r

/-! ## Invariants -/

/-- The limits chapter 9 puts on the link port: at most 4 replies (R162), at most 32 reports (R165), a GANTRY_SHOWN at most
once per gantry (R166), counts that stop at 65535 (R159, R160). -/
def LinkBounded (s : State) : Prop :=
  s.link.replies.length ≤ 4 ∧ s.link.urgent.length + s.link.routine.length ≤ 32
  ∧ (s.link.routine.filter (fun r => match r with
      | .gantryShown _ => true
      | _ => false)).Nodup
  ∧ s.link.frameDiscards ≤ 65535 ∧ s.link.requestDiscards ≤ 65535

/-- R149: the ring holds at most 64 records, written is 0..65535; and nothing is written that is not counted. -/
def HistoryBounded (s : State) : Prop := s.history.ring.length ≤ 64 ∧ s.history.written ≤ 65535

/-- R86, R97, R100, R107: at most 8 closures with distinct ids, held in rising id; each taper list holds 1..5 gantries,
without repetition, each upstream of F; and in DWELL every duty is settled and TAPER_BLOCKED is clear. The order of the table
is the model's choice (notes/assumptions/8.md). -/
def ClosuresLegal (s : State) : Prop :=
  s.closures.length ≤ 8 ∧ (s.closures.map (·.id)).Pairwise (· < ·)
  ∧ ∀ c ∈ s.closures, 1 ≤ c.taper.length ∧ c.taper.length ≤ 5 ∧ c.taper.Nodup ∧ (∀ g ∈ c.taper, g < c.first)
    ∧ (c.state = .dwell → (∀ d ∈ c.duties, d.settled = true) ∧ c.taperBlocked = false)

/-- R56, R61: at most 16 warnings, one per gantry, held in rising gantry order; each has an owner, and its owners are enabled
programs, held in rising number. Both orders are the model's choice (notes/assumptions/8.md). -/
def WarningsLegal (s : State) : Prop :=
  s.warnings.length ≤ 16 ∧ (s.warnings.map (·.gantry)).Pairwise (· < ·)
  ∧ ∀ w ∈ s.warnings, w.owners ≠ [] ∧ w.owners.Pairwise (· < ·)
      ∧ ∀ p ∈ w.owners, p < 8 ∧ (s.enabledProgram p).isSome = true

/-- R44, R51: at most one working record per program and gantry, each of an enabled program, at a gantry of its span below G;
its counter lies between 0 and the preset and its window between 0 and w. -/
def InstsLegal (s : State) : Prop :=
  (s.insts.map (fun i => (i.program, i.gantry))).Nodup
  ∧ ∀ i ∈ s.insts, i.program < 8 ∧ ∃ p, s.enabledProgram i.program = some p ∧ i.gantry < s.params.gantryCount
    ∧ p.first ≤ i.gantry ∧ i.gantry ≤ p.last ∧ i.counter ≤ p.preset ∧ i.window ≤ p.window

/-- R7, R13, R17, R87: what does not outlive the RUNNING state. -/
def StoppedIsEmpty (s : State) : Prop :=
  s.operating = .stopped →
    s.traffic = [] ∧ s.insts = [] ∧ s.warnings = [] ∧ s.plan = [] ∧ s.closures = [] ∧ ∀ l, (s.lines.get l).queue = []

/-- R124: a transaction is in flight exactly in BUSY, quiesce pending is clear in IDLE and QUIESCED, and no panel has two
pending entries. -/
def LineLegal (l : Line) : Prop :=
  (l.mode = .busy ↔ l.inFlight.isSome = true) ∧ (l.quiescePending = true → l.mode = .busy ∨ l.mode = .gap)
  ∧ (l.queue.map (·.address)).Nodup

def LinesLegal (s : State) : Prop := ∀ l, LineLegal (s.lines.get l)

/-- R124: a pending entry is for a panel of its line, and a line has at most 64 panels (R10): its queue holds at most 64
entries. -/
def QueuesBounded (s : State) : Prop :=
  ∀ l, (s.lines.get l).queue.length ≤ 64 ∧ (s.panels.filter (fun r => r.addr.line == l)).length ≤ 64
    ∧ ∀ e ∈ (s.lines.get l).queue, (panelOn s.panels l e.address).isSome = true

/-- R125: the fail count and the good count of every panel lie in 0..15. -/
def CountsLegal (s : State) : Prop := ∀ r ∈ s.panels, r.failCount ≤ 15 ∧ r.goodCount ≤ 15

/-- R125: one record per panel, and one per line and address. -/
def PanelsDistinct (s : State) : Prop := (s.panels.map (·.panel)).Nodup ∧ (s.panels.map (·.addr)).Nodup

/-- R1 to R4: the gantry table has G places, and a displayable set that is present is not empty and rises. -/
def MapHeld (s : State) : Prop :=
  s.gantries.length = s.params.gantryCount ∧ ∀ set, s.speeds = some set → set ≠ [] ∧ set.Pairwise (· < ·)

/-- The weights of 1.2 lie in 1..16. -/
def WeightsLegal (s : State) : Prop :=
  (1 ≤ s.params.kSpeed ∧ s.params.kSpeed ≤ 16) ∧ (1 ≤ s.params.kOcc ∧ s.params.kOcc ≤ 16)

/-- 2.1, R27, R31, R36: while RUNNING there is a traffic record per gantry and a lane item per lane; ages are 0..255, bands
are numbers of the table or 0, smoothed speeds 0..4000 and smoothed occupancies 0..16000. -/
def TrafficLegal (s : State) : Prop :=
  s.operating = .running →
    s.traffic.length = s.params.gantryCount
    ∧ ∀ r ∈ s.traffic, r.lanes.length = s.params.laneCount ∧ r.age ≤ 255 ∧ r.band ≤ (s.bands.getD []).length
      ∧ ∀ x ∈ r.lanes, (∀ v, x.speed = some v → v ≤ 4000) ∧ (∀ v, x.occ = some v → v ≤ 16000)

/-- h is the nearest speed-signing gantry downstream of g (R74). -/
def nextSigning (s : State) (g h : Nat) : Prop :=
  g < h ∧ h < s.params.gantryCount ∧ darkAt s.panels h = false ∧ ∀ m, g < m → m < h → darkAt s.panels m = true

/-- R64, R79: while RUNNING there is one record per gantry; the shown limit of a gantry exceeds that of the nearest
speed-signing gantry downstream by at most max_drop; every shown limit is a member of the displayable set, at most the
target, which is at most the rounded demand. -/
def PlanLawful (s : State) : Prop :=
  s.operating = .running →
    s.displayable ≠ [] ∧ s.plan.length = s.params.gantryCount
    ∧ (∀ g h, nextSigning s g h → (s.planAt g).shown ≤ (s.planAt h).shown + s.params.maxDrop)
    ∧ ∀ g, g < s.params.gantryCount →
        (s.planAt g).shown ∈ s.displayable ∧ (s.planAt g).target ∈ s.displayable ∧ (s.planAt g).rounded ∈ s.displayable
        ∧ (s.planAt g).shown ≤ (s.planAt g).target ∧ (s.planAt g).target ≤ (s.planAt g).rounded

/-- A closure in CLOSED crosses the lane at the gantry (R92). -/
def crossedBy (c : Closure) (g l : Nat) : Prop := c.state = .closed ∧ c.first ≤ g ∧ g ≤ c.last ∧ l ∈ c.lanes

/-- R92, R112, R114: while RUNNING, every entry of the cross map stands for a closure in CLOSED, CROSS is desired of a lane panel
only where a closure in CLOSED covers its gantry and lane, and a FAILED panel is desired dark, cause FAILED. -/
def AspectsLawful (s : State) : Prop :=
  s.operating = .running →
    (∀ e ∈ s.crossMap, ∃ c ∈ s.closures, crossedBy c e.gantry e.lane)
    ∧ ∀ e ∈ s.aspects,
        (e.desired = .cross → ∃ c ∈ s.closures, crossedBy c e.panel.gantry e.panel.panel)
        ∧ (∀ r ∈ s.panels, r.panel = e.panel → r.health = .failed →
            e.desired = (if e.panel.panel = 0 then .message 0 false else .blank) ∧ e.cause = .failed)

/-- A property of states that the queue of waiting commands has no part in, kept by every command. -/
def KeptByEveryStep (P : State → Prop) : Prop := ∀ s t, P s → step s = .next t → P t

/-! ## What a change of sources sets off (R66, R104, R105, R110) -/

/-- R104: every lane panel at the closure's taper gantries and at F..L is FAILED, or its confirmed aspect equals its desired
aspect. -/
def RoadSettled (s : State) (c : Closure) : Prop :=
  ∀ g l, g < s.params.gantryCount → (g ∈ c.taper ∨ c.first ≤ g ∧ g ≤ c.last) → 1 ≤ l → l ≤ s.params.laneCount →
    ∃ r, panelAt s.panels g l = some r ∧ (r.health = .failed
      ∨ ∃ e, entryAt s.aspects ⟨g, l⟩ = some e ∧ r.confirmed = some e.desired)

/-- R104, R105: of the closures of `w`, those in RELEASING whose road has settled, with the panels and aspects of `u`, are gone
from `u`, each with its last report, and no other. The model's: the test is made once, at the event's end
(notes/assumptions/9.md), and several last reports stand in rising id (notes/assumptions/8.md). -/
def Endings (w u : State) (ends : List Report) : Prop :=
  ∃ gone : Closure → Bool, (∀ c, gone c = true ↔ c.state = .releasing ∧ RoadSettled u c)
    ∧ u.closures = w.closures.filter (fun c => !gone c)
    ∧ ends = (w.closures.filter gone).map (fun c => .closureState w.clock .state .releasing none c)

/-- R111: the entries of `u` whose desired aspect differs from that in `w`, the most downstream gantry first, and within a
gantry in the table's order, lane 1 to N and then the message panel. -/
def changesInOrder (w u : State) : List AspectEntry :=
  (List.range w.params.gantryCount).reverse.flatMap (fun g =>
    (w.aspects.zip u.aspects).filterMap (fun x =>
      if x.2.panel.gantry = g ∧ x.1.desired ≠ x.2.desired then some x.2 else none))

/-- R126: the queue of a line after a changed entry is handed on: of a panel of that line an entry is placed, in the class the
change calls for. -/
def queueAfter (panels : List PanelRec) (l : LineId) (queue : List PendEntry) (e : AspectEntry) : List PendEntry :=
  match panelAt panels e.panel.gantry e.panel.panel with
  | some r => if r.addr.line = l then placeEntry queue r.addr.address (callsFor r.confirmed e.desired) else queue
  | none => queue

/-- R111, R126: the changed desired aspects are handed on to the lines in order, and nothing else of a line changes. -/
def HandedOn (w u : State) : Prop :=
  ∀ l, u.lines.get l =
    { w.lines.get l with queue := (changesInOrder w u).foldl (queueAfter w.panels l) (w.lines.get l).queue }

/-- While RUNNING, `w` holding the changed sources: one event run where demand or darkness changed (R66, R68), the desired
aspects recomputed once (R110) and handed on (R111), and then the releases that settle. -/
def SourcesTaken (w u : State) (run : Prop) (ends : List Report) : Prop :=
  (run → u.plan = w.planRun false none) ∧ (¬ run → u.plan = w.plan)
  ∧ u.aspects = w.aspects.map (State.newEntry { w with plan := u.plan })
  ∧ HandedOn w u ∧ Endings w u ends

/-- Nothing is set off. -/
def NothingSetOff (w u : State) (ends : List Report) : Prop :=
  u.plan = w.plan ∧ u.aspects = w.aspects ∧ u.lines = w.lines ∧ u.closures = w.closures ∧ ends = []

/-! ## The work of the closure unit in one event (chapter 5) -/

/-- `d` is the record `c` with what CLOSURE_SET fixed unchanged: id, lanes, F, L, T, the caps, the dwell, the creation time
(R86, R89). -/
def OrderKept (c d : Closure) : Prop :=
  d = { c with
    state := d.state, taper := d.taper, full := d.full, taperBlocked := d.taperBlocked, taperLost := d.taperLost,
    slow := d.slow, dwellEntry := d.dwellEntry, duties := d.duties }

/-- Every active closure of `s` but the one named is in `t`'s table with its order unchanged, and it is still active (R90). -/
def OthersStand (s t : State) (id : Nat) : Prop :=
  ∀ c ∈ s.closures, c.id ≠ id → c.state ≠ .releasing → ∃ d ∈ t.closures, OrderKept c d ∧ d.state ≠ .releasing

/-- R90: the table with the FULL mark of every active closure as the closed set at its F gives it. -/
def withFull (laneCount : Nat) (cs : List Closure) : List Closure :=
  cs.map (fun c => if c.state = .releasing then c else
    { c with full := (List.range laneCount).all (fun l => cs.any (fun d =>
        d.state != .releasing && decide (d.first ≤ c.first ∧ c.first ≤ d.last) && d.lanes.contains (l + 1))) })

/-- The panel is FAILED, or its confirmed aspect is one of these. -/
def FailedOrShows (s : State) (g l : Nat) (ok : Aspect → Prop) : Prop :=
  ∃ r, panelAt s.panels g l = some r ∧ (r.health = .failed ∨ ∃ a, r.confirmed = some a ∧ ok a)

/-- R93, R94: SPEED at or below the cap, BLANK where the cap is the corridor maximum, an arrow or a cross. -/
def Slows (s : State) (cap : Nat) (a : Aspect) : Prop :=
  (∃ v, a = .speed v ∧ v ≤ cap) ∨ (a = .blank ∧ cap = s.corridorMax) ∨ a = .arrowNear ∨ a = .arrowOff ∨ a = .cross

/-- R94: the speed gate, over every lane panel of every taper gantry. -/
def SpeedGate (s : State) (cap : Nat) (taper : List Nat) : Prop :=
  ∀ t ∈ taper, ∀ l, 1 ≤ l → l ≤ s.params.laneCount → FailedOrShows s t l (Slows s cap)

/-- R93: what meets a duty. -/
def DutyMet (s : State) (cap : Nat) (d : Duty) : Prop :=
  match d.kind with
  | .arrow => FailedOrShows s d.gantry d.lane (fun a => a = .arrowNear ∨ a = .arrowOff)
  | .capped => FailedOrShows s d.gantry d.lane (Slows s cap)
  | .none => True

/-- R99: every lane of the lane set has a lead panel: one at some taper gantry that is not FAILED. -/
def Leads (s : State) (c : Closure) (taper : List Nat) : Prop :=
  ∀ l ∈ c.lanes, ∃ t ∈ taper, ∀ r, panelAt s.panels t l = some r → r.health ≠ .failed

/-- The most upstream gantry of a taper list. -/
def mostUpstream (c : Closure) : Nat := (c.taper.min?).getD 0

/-- The n gantries immediately upstream of the taper list, in the order of joining (R100). -/
def joining (c : Closure) (n : Nat) : List Nat := (List.range n).map (fun k => mostUpstream c - 1 - k)

/-- The gantry and lane of each duty. -/
def dutyPlaces (c : Closure) : List (Nat × Nat) := c.duties.map (fun d => (d.gantry, d.lane))

/-- The places of a closure's duties at these gantries: one per lane of the lane set (R93). -/
def placesAt (c : Closure) (gantries : List Nat) : List (Nat × Nat) :=
  gantries.flatMap (fun t => c.lanes.map (fun l => (t, l)))

/-- What one event makes of an active closure `c` where the panels and the table stand as in `m`: `d`, with n gantries joined. -/
structure Progress (m : State) (n : Nat) (c d : Closure) : Prop where
  /-- R86, R90, R102: the order, FULL and SLOW stand. -/
  order : OrderKept c d ∧ d.full = c.full ∧ d.slow = c.slow
  /-- R100: gantries join at the head, each where a lane has no lead panel, the list holds fewer than 5 and gantry 0 is not
  reached, until that ends. -/
  taper : d.taper = c.taper ++ joining c n
    ∧ (∀ k, k < n → ¬ Leads m c (c.taper ++ joining c k) ∧ (c.taper ++ joining c k).length < 5 ∧ k < mostUpstream c)
    ∧ (Leads m c d.taper ∨ 5 ≤ d.taper.length ∨ n = mostUpstream c)
  /-- R99: with a lead panel for every lane both marks clear. -/
  leads : Leads m c d.taper → d.taperBlocked = false ∧ d.taperLost = false
  /-- R101: without, TAPER_LOST is set in CLOSED, and TAPER_BLOCKED before. -/
  lacks : ¬ Leads m c d.taper →
    (c.state = .closed → d.taperLost = true ∧ d.taperBlocked = c.taperBlocked)
    ∧ (c.state ≠ .closed → d.taperBlocked = true ∧ d.taperLost = c.taperLost)
  /-- R94: REQUESTED is left exactly where the speed gate holds. -/
  slowed : c.state = .requested → (d.state = .requested ↔ ¬ SpeedGate m c.cap d.taper)
  /-- R95, R96: otherwise, and not in CLOSED, it is DWELL exactly where every duty is settled and TAPER_BLOCKED is clear, and
  ARROWS where not. -/
  gated : c.state ≠ .closed → d.state ≠ .requested →
    d.state = (if d.duties.all (·.settled) = true ∧ d.taperBlocked = false then .dwell else .arrows)
  /-- R98; and nothing returns to REQUESTED. -/
  stays : (c.state = .closed → d.state = .closed) ∧ (d.state = .requested → c.state = .requested)
  /-- R95, R96: an entry into DWELL takes the corridor clock; a dwell that goes on keeps its entry time. The time of a dwell
  that has been left stands in the record. -/
  entry : d.dwellEntry = (if d.state = .dwell ∧ (c.state ≠ .dwell ∨ n ≠ 0) then some m.clock else c.dwellEntry)
  /-- R93: the duties are made for the whole taper list on entering ARROWS, and for a joining gantry when it joins. Their
  order, by gantry in order of joining and within it by rising lane, is the model's choice (notes/assumptions/30.md). -/
  places : (d.state = .requested → d.duties = c.duties)
    ∧ (d.state ≠ .requested →
        dutyPlaces d = if c.state = .requested then placesAt c d.taper else dutyPlaces c ++ placesAt c (joining c n))
  /-- R93: every kind and mark is as the panels and the table give it; in CLOSED a set mark stays set. -/
  tested : d.state ≠ .requested → ∀ (k : Nat) (x : Duty), d.duties[k]? = some x →
    x.kind = dutyKind m.params.laneCount m.closures c x.gantry x.lane
    ∧ (x.settled = true ↔ DutyMet m c.cap x ∨ (c.state = .closed ∧ ∃ y, c.duties[k]? = some y ∧ y.settled = true))

/-- The transitions a closure's work makes (R94 to R96); `joined` where gantries joined its taper. -/
def transitions : ClosureState → ClosureState → Bool → List (ClosureState × ClosureState)
  | .requested, .arrows, _ => [(.requested, .arrows)]
  | .requested, .dwell, _ => [(.requested, .arrows), (.arrows, .dwell)]
  | .arrows, .dwell, _ => [(.arrows, .dwell)]
  | .dwell, .arrows, _ => [(.dwell, .arrows)]
  | .dwell, .dwell, true => [(.dwell, .arrows), (.arrows, .dwell)]
  | _, _, _ => []

/-- The changes of the marks between two records (R106). -/
def markChanges (c d : Closure) : List ClosureEvent :=
  (if c.taperBlocked = d.taperBlocked then [] else
    [if d.taperBlocked = true then .markSet .taperBlocked else .markCleared .taperBlocked])
  ++ (if c.taperLost = d.taperLost then [] else
    [if d.taperLost = true then .markSet .taperLost else .markCleared .taperLost])

/-- The transitions these reports tell of a closure, in order. -/
def toldTransitions (id : Nat) (rs : List Report) : List (ClosureState × ClosureState) :=
  rs.filterMap (fun r => match r with
    | .closureState _ .state before (some now) c => if c.id = id then some (before, now) else none
    | _ => none)

/-- The mark events these reports tell of a closure, in order. -/
def toldMarks (id : Nat) (rs : List Report) : List ClosureEvent :=
  rs.filterMap (fun r => match r with
    | .closureState _ .state _ _ _ => none
    | .closureState _ e _ _ c => if c.id = id then some e else none
    | _ => none)

/-- What an event does to the closures while RUNNING, its own change being in `m` already: every active closure progresses and
its transitions and marks are reported (R106), one in RELEASING stands, the maps are recomputed (R92), and the plan, the
aspects and the releases follow (R66, R104, R110), a gantry that joined a taper being a change of demand (R100). That a
closure in DWELL whose taper extends returns to ARROWS, and may re-enter DWELL at once, is DEDUCED (notes/assumptions/12.md);
the order of a closure's duties is the model's choice (notes/assumptions/30.md). -/
def ClosuresWorked (m u : State) (demand : Prop) (rs : List Report) : Prop :=
  ∃ (ds : List Closure) (work ends : List Report),
    rs = work ++ ends ∧ ds.length = m.closures.length
    ∧ (∀ (k : Nat) (c d : Closure), m.closures[k]? = some c → ds[k]? = some d →
        (c.state = .releasing → d = c)
        ∧ (c.state ≠ .releasing → ∃ n, Progress m n c d
            ∧ toldTransitions c.id work = transitions c.state d.state (decide (n ≠ 0))
            ∧ toldMarks c.id work = markChanges c d))
    ∧ (∀ r ∈ work, ∃ e before x, r = .closureState m.clock e before (some x.state) x
        ∧ ∃ c ∈ m.closures, c.state ≠ .releasing ∧ c.id = x.id)
    ∧ u.arrowMap = arrowMapOf m.params.gantryCount m.params.laneCount ds
    ∧ u.crossMap = crossMapOf m.params.gantryCount m.params.laneCount ds
    ∧ SourcesTaken { m with closures := ds, arrowMap := u.arrowMap, crossMap := u.crossMap } u
        (demand ∨ ds.map (·.taper) ≠ m.closures.map (·.taper)) ends

/-! ## The evaluation of a gantry (R45) -/

/-- Step 1 for one program: its working record at the gantry evaluated; none where the program is not enabled or has none. -/
def evaluatedAt (t : State) (g p : Nat) : Option Evaluated :=
  (t.enabledProgram p).bind (fun prog =>
    (t.insts.find? (fun i => i.program == p && i.gantry == g)).map (t.evaluate prog))

/-- The firings noted in step 1, in rising program number. -/
def firingsAt (t : State) (g : Nat) : List Firing := (List.range 8).filterMap (fun p => (evaluatedAt t g p).bind (·.firing))

/-- The q of a program at the gantry; unknown where it formed none. -/
def qAt (t : State) (g p : Nat) : Option Bool := (evaluatedAt t g p).bind (·.q)

/-- The programs that fired at the gantry and hold an action, rising. -/
def firedWith (t : State) (g : Nat) (act : Actions → Bool) : List Nat :=
  ((firingsAt t g).map (·.program)).filter (fun p => (t.enabledProgram p).any (fun prog => act prog.actions))

/-- R56, R57: a warning owned by these programs, with the smallest cap and the largest hold among them. -/
def ownedBy (t : State) (w : Warning) (owners : List Nat) : Warning :=
  { w with
    owners := owners
    requestedCap := ((owners.filterMap t.ownerCap).min?).getD 0
    cap := roundInto t.displayable (((owners.filterMap t.ownerCap).min?).getD 0)
    hold := ((owners.filterMap t.ownerHold).max?).getD 0 }

/-- The warning at the gantry when the firings have been carried out (R54, R57): the one that stood, joined by the programs that
fired with WARN; or with none standing and room in the table, the one they make. -/
def warningFired (t : State) (g : Nat) : Option Warning :=
  if (firedWith t g (·.warn)).isEmpty then warningAt t.warnings g
  else
    match warningAt t.warnings g with
    | some w => some (ownedBy t w
        ((List.range 8).filter (fun p => w.owners.contains p || (firedWith t g (·.warn)).contains p)))
    | none =>
      if t.warnings.length < 16 then some (ownedBy t ⟨g, [], 0, 0, 0, t.clock⟩ (firedWith t g (·.warn))) else none

/-- R58: the remaining hold after step 3. -/
def holdLeft (t : State) (g : Nat) (w : Warning) : Nat :=
  if w.owners.any (fun p => qAt t g p == some true) then ((w.owners.filterMap t.ownerHold).max?).getD 0
  else if w.owners.any (fun p => qAt t g p == some false) then w.hold - 1
  else w.hold

/-- R58, R59: the warning at the gantry after the evaluation; at a hold of 0 it has ended. -/
def warningLeft (t : State) (g : Nat) : Option Warning :=
  (warningFired t g).bind (fun w => if holdLeft t g w = 0 then none else some { w with hold := holdLeft t g w })

/-- The reports of the firings, one after the other, from whether a warning stands at the gantry and whether the capture is
FROZEN (R54, R55, R57, R150). -/
def firingReports (t : State) (g : Nat) : Bool → Bool → List Firing → List Report
  | _, _, [] => []
  | stands, frozen, f :: rest =>
    match t.enabledProgram f.program with
    | none => firingReports t g stands frozen rest
    | some prog =>
      let placement : Placement :=
        if prog.actions.warn = false then .none
        else if stands = true then .merged
        else if t.warnings.length < 16 then .placed
        else .notPlaced
      (if prog.actions.report then
          [.triggerFired t.clock f.program g (!prog.actions.rearm) f.readA f.readB placement]
        else [])
      ++ (if prog.actions.freeze && !frozen then
          [.historyFrozen ⟨t.clock, .trigger f.program g⟩ t.history.ring.length t.history.written]
        else [])
      ++ firingReports t g (stands || placement == .placed) (frozen || prog.actions.freeze) rest

/-- The reports of an evaluation (R45): the firings', the start of a warning made, and its ending where its hold has run out
(R57, R59, R62). What the start report carries is the model's choice (notes/assumptions/11.md). -/
def evaluationReports (t : State) (g : Nat) : List Report :=
  firingReports t g (warningAt t.warnings g).isSome t.history.frozen.isSome (firingsAt t g)
  ++ (match warningAt t.warnings g, warningFired t g with
      | none, some w => [.warningState t.clock .started w]
      | _, _ => [])
  ++ (match warningFired t g with
      | some w => if holdLeft t g w = 0 then [.warningState t.clock (.ended .holdExpired) w] else []
      | none => [])

/-! ## Resets (R16 to R19, R139, R145, R171) -/

/-- The LINE_STATE reports of the lines sensed below 19.0 V at a reset, in the order A, B, C, D (R139). -/
def lowAtReset (s : State) : List Report :=
  ([.a, .b, .c, .d].filter (fun l => decide (s.sense.get l < 19000))).map
    (fun l => .lineState 0 l .low .idle false 0)

/-- The runtime state of every block is as a reset leaves it, every transmit enable released (R17, R18, R145). -/
def RuntimeCleared (t : State) : Prop :=
  t.operating = .stopped ∧ t.clock = 0 ∧ t.planTimer = 0 ∧ t.operatorCap = 0 ∧ t.traffic = [] ∧ t.insts = []
  ∧ t.warnings = [] ∧ t.plan = [] ∧ t.closures = [] ∧ t.arrowMap = [] ∧ t.crossMap = [] ∧ t.aspects = []
  ∧ t.panels = [] ∧ t.legends = List.replicate 32 0 ∧ ∀ l, (t.lines.get l).transmitEnable = false

/-- What a pin or host reset keeps: the map, the programs, the history (R17); the pins and the waiting commands stand. -/
def KeptThroughReset (s t : State) : Prop :=
  t.params = s.params ∧ t.gantries = s.gantries ∧ t.speeds = s.speeds ∧ t.bands = s.bands ∧ t.programs = s.programs
  ∧ t.history = s.history ∧ t.sense = s.sense ∧ t.pending = s.pending

/-- The part has begun again with this cause: RESTART, carrying it, is the first frame sent, with no flag set; the LINE_STATE
reports of the LOW lines wait behind it (R19, R139, R171). -/
def Restarted (s t : State) (cause : ResetCause) : Prop :=
  RuntimeCleared t ∧ t.resetCause = cause ∧ t.nrstLow = false
  ∧ (∀ l, t.lines.get l = ⟨.idle, false, if s.sense.get l < 19000 then .low else .normal, [], none⟩)
  ∧ t.link = ⟨.hunt, [], lowAtReset s, [], false, false, 0, 0,
      some ⟨⟨0xF0, 0, [0, 0, 0, 0, cause.code]⟩, false, false⟩, false⟩

/-! ## The map as START asks for it (R10) -/

/-- The map holds together: items 1 to 14. -/
def MapConsistent (s : State) : Prop :=
  s.params.gantryCount ≠ 0 ∧ s.params.laneCount ≠ 0
  ∧ (∀ g, g < s.params.gantryCount → (s.gantry? g).isSome = true)
  ∧ (∀ g, g + 1 < s.params.gantryCount → s.chainage g + 100 ≤ s.chainage (g + 1))
  ∧ ((mapPanels s.gantries).map Prod.snd).Nodup
  ∧ (∀ l, ((mapPanels s.gantries).filter (fun x => x.2.line == l)).length ≤ 64)
  ∧ s.speeds.isSome = true ∧ s.bands.isSome = true
  ∧ (∀ i x y, s.displayable[i]? = some x → s.displayable[i + 1]? = some y → y ≤ x + s.params.maxDrop)
  ∧ ∀ i b, (s.bands.getD [])[i]? = some b →
      b.limit ∈ s.displayable ∧ b.occOff < b.occOn ∧ b.spdOn < b.spdOff
      ∧ ∀ j a, j + 1 = i → (s.bands.getD [])[j]? = some a → b.limit ≤ a.limit

/-! ## Outcomes of transactions (R132 to R134) -/

/-- The transaction on line l has ended: the line is in GAP with nothing in flight and its transmit enable released (R130), and of
the lines nothing but queues changes besides; only the record held for its line and address is written, and becomes `new` (R125, R134); the blocks R134
does not name stand. -/
def OutcomeTaken (s t : State) (l : LineId) (address : Nat) (new : PanelRec) : Prop :=
  (∀ m, { t.lines.get m with queue := (s.lines.get m).queue }
    = if m = l then { s.lines.get l with mode := .gap, inFlight := none } else s.lines.get m)
  ∧ (t.lines.get l).transmitEnable = false
  ∧ panelOn t.panels l address = some new
  ∧ (∀ l' a, (l', a) ≠ (l, address) → panelOn t.panels l' a = panelOn s.panels l' a)
  ∧ { t with history := s.history, panels := s.panels, lines := s.lines, link := s.link, plan := s.plan,
             aspects := s.aspects, closures := s.closures, arrowMap := s.arrowMap, crossMap := s.crossMap } = s

/-- The counts and health after a counted failure (R135). -/
def AfterFailure (failLimit : Nat) (old new : PanelRec) : Prop :=
  new.goodCount = 0 ∧ new.failCount = min (old.failCount + 1) 15
  ∧ new.health = (if old.health = .failed ∨ failLimit ≤ min (old.failCount + 1) 15 then .failed else .suspect)

/-- The counts and health after a counted GOOD (R135). -/
def AfterGood (recoverCount : Nat) (old new : PanelRec) : Prop :=
  new.failCount = 0
  ∧ (old.health ≠ .failed → new.health = .healthy ∧ new.goodCount = 0)
  ∧ (old.health = .failed → recoverCount ≤ old.goodCount + 1 → new.health = .healthy ∧ new.goodCount = 0)
  ∧ (old.health = .failed → old.goodCount + 1 < recoverCount →
      new.health = .failed ∧ new.goodCount = min (old.goodCount + 1) 15)

/-- Nothing is counted while the supply is LOW (R140). -/
def NotCounted (old new : PanelRec) : Prop :=
  new.health = old.health ∧ new.failCount = old.failCount ∧ new.goodCount = old.goodCount

/-- The seven characters of a reply that passes its checks (R178). -/
def replyChars (address : Nat) (b : AspectBytes) (fault pixel : Byte) : List RxChar :=
  ([byteOf address ||| 0x80, b.code, b.speed, b.legend, fault, pixel,
    crc8 [byteOf address ||| 0x80, b.code, b.speed, b.legend, fault, pixel]] : Bytes).map RxChar.good

/-- No reply can be read from these characters: short, with a framing error, with a failed check or another address, or with
an echo that is no aspect of the panel's kind (R130, R180). -/
def Unreadable (address panel : Nat) (chars : List RxChar) : Prop :=
  ∀ b fault pixel, chars.take 7 = replyChars address b fault pixel → decodeAspect panel b = none

/-- The retry of a failure (R133): while RUNNING, and unless the panel is FAILED after it, the panel has a pending entry, SAFETY
where the transaction was. -/
def Retried (s u : State) (l : LineId) (t : InFlight) (new : PanelRec) : Prop :=
  s.operating = .running → new.health ≠ .failed →
    ∃ e ∈ (u.lines.get l).queue, e.address = t.address ∧ (t.cls = .safety → e.cls = .safety)

/-- What an outcome reports: a change into or out of FAILED (R137), then what it sets off, and last of all the gantry whose
confirmed aspect changed (R166). -/
def OutcomeReported (s : State) (old new : PanelRec) (o : TxOutcome) (setOff rs : List Report) : Prop :=
  rs = (if old.health ≠ new.health ∧ (old.health = .failed ∨ new.health = .failed) then
      [.panelHealth s.clock new old.health o] else [])
    ++ setOff ++ (if old.confirmed = new.confirmed then [] else [.gantryShown new.panel.gantry])

/-- The lines when a transaction on l has ended with an outcome (R130, R133): l is in GAP, and of a failure that is retried the
panel has a pending entry, of the transaction's class. -/
def linesLeft (s : State) (l : LineId) (t : InFlight) (new : PanelRec) (o : TxOutcome) : PerLine Line :=
  s.lines.set l { s.lines.get l with
    mode := .gap
    inFlight := none
    queue := if s.operating = .running ∧ o ≠ .good ∧ new.health ≠ .failed then
        placeEntry (s.lines.get l).queue t.address t.cls
      else (s.lines.get l).queue }

/-- What an outcome sets off (R134, R138): in STOPPED nothing. While RUNNING the desired aspects are recomputed and the releases
that settle end; and of a lane panel's outcome the closures work, with an event run where a gantry became dark or ceased to
be. That the retry's entry is placed before those of the changed aspects is the model's choice (notes/assumptions/28.md). -/
def OutcomeActs (s u : State) (l : LineId) (t : InFlight) (new : PanelRec) (o : TxOutcome) (rs : List Report) : Prop :=
  let m := { s with panels := u.panels, lines := linesLeft s l t new o }
  (s.operating = .stopped → u.lines = m.lines ∧ u.plan = s.plan ∧ u.aspects = s.aspects ∧ u.closures = s.closures
    ∧ u.arrowMap = s.arrowMap ∧ u.crossMap = s.crossMap ∧ rs = [])
  ∧ (s.operating = .running → new.panel.panel = 0 →
      u.arrowMap = s.arrowMap ∧ u.crossMap = s.crossMap ∧ SourcesTaken m u False rs)
  ∧ (s.operating = .running → new.panel.panel ≠ 0 → ClosuresLegal s →
      ClosuresWorked m u (∃ g, g < s.params.gantryCount ∧ darkAt u.panels g ≠ darkAt s.panels g) rs)

/-! ## Request bodies as the host writes them (10.3) -/

/-- A two-byte field, high byte first. -/
def twoBytes (n : Nat) : Bytes := [byteOf (n / 256), byteOf n]

/-- A line and address. -/
def addrBytes (a : PanelAddr) : Bytes :=
  [match a.line with
   | .a => 0
   | .b => 1
   | .c => 2
   | .d => 3, byteOf a.address]

/-- MAP_GANTRY; x and y are the last two bytes, not looked at, where there is no message panel. -/
def gantryBody (index : Byte) (r : GantryRec) (x y : Byte) : Bytes :=
  [index] ++ twoBytes r.chainage ++ [byteOf r.lanes.length] ++ r.lanes.flatMap addrBytes
    ++ (match r.message with
        | some a => 1 :: addrBytes a
        | none => [0, x, y])

/-- MAP_BANDS. -/
def bandBytes (b : Band) : Bytes := twoBytes b.occOn ++ twoBytes b.occOff ++ [byteOf b.spdOn, byteOf b.spdOff, byteOf b.limit]

/-- A lane entry of DETECTOR. -/
def laneBytes (e : LaneEntry) : Bytes := [byteOf e.count] ++ twoBytes e.occ ++ [byteOf e.speed, e.flags.setWidth 8]

/-- A comparator of TRIGGER_SET. -/
def comparatorBytes (c : Comparator) : Bytes :=
  ([match c.field with
   | .speed => 0
   | .occ => 1
   | .count => 2
   | .dspeed => 3
   | .band => 4
   | .status => 5,
   match c.relation with
   | .le => 0
   | .ge => 1
   | .eq => 2
   | .ne => 3] : Bytes) ++ encS16 c.value ++ [c.mask.setWidth 8]

/-- TRIGGER_SET; x, y and z are the bytes of window, cap and hold where those fields are not looked at. -/
def programBody (number : Byte) (p : Program) (x y z : Byte) : Bytes :=
  ([number, byteOf p.first, byteOf p.last,
   match p.source with
   | .aggregate => 0
   | .lane l => byteOf l] : Bytes)
  ++ comparatorBytes p.compA ++ comparatorBytes p.compB
  ++ ([match p.mode with
      | .a => 0
      | .aOrB => 1
      | .aAndB => 2
      | .aThenB => 3,
      if p.mode = .aThenB then byteOf p.window else x, byteOf p.preset,
      (if p.actions.warn then 1 else 0) ||| (if p.actions.report then 2 else 0)
        ||| (if p.actions.freeze then 4 else 0) ||| (if p.actions.rearm then 8 else 0),
      if p.actions.warn then byteOf p.warnCap else y, if p.actions.warn then byteOf p.warnHold else z] : Bytes)

/-- A comparator in the ranges of R41. -/
def ComparatorLegal (c : Comparator) : Prop :=
  if c.field = .status then 0 ≤ c.value ∧ c.value ≤ 15 else -255 ≤ c.value ∧ c.value ≤ 1000

/-- A program in the ranges of R41; a field not looked at is held as 0 (10.3). -/
def ProgramLegal (p : Program) : Prop :=
  p.first ≤ p.last ∧ p.last ≤ 31
  ∧ (match p.source with
     | .aggregate => True
     | .lane l => 1 ≤ l ∧ l ≤ 5)
  ∧ ComparatorLegal p.compA ∧ ComparatorLegal p.compB
  ∧ (if p.mode = .aThenB then 1 ≤ p.window ∧ p.window ≤ 15 else p.window = 0)
  ∧ p.preset ≤ 31
  ∧ (p.actions.warn = true ∨ p.actions.report = true ∨ p.actions.freeze = true)
  ∧ (if p.actions.warn = true then (1 ≤ p.warnCap ∧ p.warnCap ≤ 255) ∧ (1 ≤ p.warnHold ∧ p.warnHold ≤ 60)
     else p.warnCap = 0 ∧ p.warnHold = 0)

/-! ## Reply and report items, in the order they are sent (10.4, 10.5) -/

/-- R55, R177: a value a comparator read; the two bytes of one not read or unknown are 0, which is the model's choice
(notes/assumptions/14.md). -/
def valueReadItem : ReadVal → Bytes
  | .notRead => [0, 0, 0]
  | .unknown => [1, 0, 0]
  | .known v => 2 :: encS16 v

/-- A mark as a closure event names it: its bit of the marks byte, the model's choice (notes/assumptions/14.md). -/
def markItem : Mark → Byte
  | .taperBlocked => 2
  | .taperLost => 4
  | .slow => 8

/-- R175, R177: the kind of each report and its items in order. RESTART (R19), TRIGGER_FIRED (R55), PANEL_HEALTH (R137),
CLOSURE_STATE (R106), GANTRY_SHOWN (R166), LINE_STATE (R139), WARNING_STATE (R62), HISTORY_FROZEN (R150). Of a GANTRY_SHOWN the
clock and the panel records are those of the moment it is sent. What the spec leaves open of the layout is the model's
(notes/assumptions/14.md). -/
def reportItems (now : Clock) (panels : List PanelRec) : Report → Byte × Bytes
  | .restart time cause => (0xF0, encClock time ++ [cause.code])
  | .triggerFired time program gantry fired a b placement =>
    (0xF1, encClock time ++ [byteOf program, byteOf gantry, if fired then 1 else 0] ++ valueReadItem a ++ valueReadItem b
      ++ [placement.code])
  | .panelHealth time r before outcome =>
    (0xF2, encClock time ++ addrBytes r.addr ++ [byteOf r.panel.gantry, byteOf r.panel.panel, before.code, r.health.code,
        byteOf r.failCount, byteOf r.goodCount, outcome.code]
      ++ encOpt 1 (fun b => [b]) r.fault ++ encOpt 1 (fun n => [byteOf n]) r.pixel ++ [if r.degraded then 1 else 0])
  | .closureState time event before after c =>
    (0xF3, encClock time ++ [byteOf c.id]
      ++ (match event with
          | .created => [0]
          | .state => [1]
          | .markSet m => [2, markItem m]
          | .markCleared m => [3, markItem m])
      ++ [before.code, match after with
          | some x => x.code
          | none => 5]
      ++ encMarks c ++ byteOf c.taper.length :: c.taper.map byteOf
      ++ (if after = some .arrows ∨ after = some .dwell ∨ after = some .closed then
            [byteOf c.duties.length, byteOf (c.duties.filter (·.settled)).length] else []))
  | .gantryShown gantry =>
    (0xF4, encClock now ++ [byteOf gantry]
      ++ (panels.filter (fun r => r.panel.gantry == gantry && r.panel.panel != 0)
          ++ panels.filter (fun r => r.panel.gantry == gantry && r.panel.panel == 0)).flatMap
            (fun r => encOpt 3 encAspect r.confirmed))
  | .lineState time line supply mode quiescePending queued =>
    (0xF5, encClock time ++ [lineCode line, supply.code, mode.code, if quiescePending then 1 else 0, byteOf queued])
  | .warningState time event w =>
    (0xF6, encClock time ++ [byteOf w.gantry]
      ++ (match event with
          | .started => [0]
          | .ended reason => [1, reason.code])
      ++ [byteOf w.cap, byteOf w.requestedCap] ++ encSet 0 w.owners ++ encClock w.start)
  | .historyFrozen f held written =>
    (0xF7, encClock f.time ++ encFreezeSource f.source ++ twoBytes held ++ twoBytes written)

/-- R40: the items of a gantry's traffic section; in STOPPED those of the record START would set. -/
def trafficItems (s : State) (g : Nat) : Bytes :=
  let r := if s.operating = .running then s.trafficAt g else
    ⟨true, 0, none, 0, none, none, none, none, List.replicate s.params.laneCount ⟨false, none, none, none, none⟩⟩
  [if r.absent then 1 else 0, byteOf r.age] ++ encOpt 1 (fun q => [byteOf q]) r.lastSeq
    ++ [byteOf r.band, byteOf (if r.band = 0 then s.corridorMax else
          (((s.bands.getD [])[r.band - 1]?).map (·.limit)).getD s.corridorMax)]
    ++ encOpt 1 (fun v => [byteOf v]) r.aggSpeed ++ encOpt 2 twoBytes r.aggOcc
    ++ encOpt 1 (fun f => [f.setWidth 8]) r.aggStatus ++ encOpt 2 twoBytes r.aggCount
    ++ r.lanes.flatMap (fun x => [if x.present then 1 else 0] ++ encOpt 1 (fun v => [byteOf (v / 16)]) x.speed
        ++ encOpt 2 (fun v => twoBytes (v / 16)) x.occ ++ encOpt 1 (fun n => [byteOf n]) x.count
        ++ encOpt 1 (fun f => [f.setWidth 8]) x.flags)

/-- R84: the items of a gantry's plan section; in STOPPED the mark is clear and every other value 0. -/
def planItems (s : State) (g : Nat) : Bytes :=
  let r := s.planAt g
  if s.operating = .running then
    [1, byteOf r.demand] ++ encBinding r.binding
      ++ [byteOf r.rounded, if r.clamped then 1 else 0, byteOf r.target, byteOf r.shown, byteOf r.riseWait,
          match r.cause with
          | .plan => 0
          | .operator => 1, if darkAt s.panels g then 1 else 0]
  else [0, 0, 0, 0, 0, 0, 0, 0, 0, 0]

/-- R123: the desired aspect of a panel's entry, or absent, and its cause. -/
def desiredItems (s : State) (p : PanelId) : Bytes :=
  match entryAt s.aspects p with
  | some e => 1 :: encAspect e.desired ++ encCause e.cause
  | none => [0, 0, 0, 0]

/-- R125, R147: the items of a panel's section. A record is held: its line and address, every item of it, its pending entry's
class and position, whether a transaction is in flight for it. None is held: so marked, with the line and address of the map,
and the items that are not there read 0 (notes/assumptions/14.md). Then the desired aspect and cause. -/
def panelItems (s : State) (p : PanelId) (mapped : PanelAddr) : Bytes :=
  (match panelAt s.panels p.gantry p.panel with
  | some r =>
    let line := s.lines.get r.addr.line
    [1] ++ addrBytes r.addr ++ encOpt 3 encAspect r.confirmed
      ++ [r.health.code, byteOf r.failCount, byteOf r.goodCount, if r.degraded then 1 else 0]
      ++ encOpt 1 (fun n => [byteOf n]) r.pixel ++ encOpt 1 (fun b => [b]) r.fault
      ++ encOpt 1 (fun o => [o.code]) r.lastOutcome ++ encClock r.lastTime
      ++ encOpt 2 (fun x => [x.1.cls.code, byteOf (x.2 + 1)])
          (line.queue.zipIdx.find? (fun x => x.1.address == r.addr.address))
      ++ [if line.inFlight.any (fun t => t.address == r.addr.address) then 1 else 0]
  | none => [0] ++ addrBytes mapped ++ List.replicate 22 0)
  ++ desiredItems s p

/-- R86, R107: the whole record of a closure. The order of the duties, which is that of the record, and of the lead panels,
by rising lane, is the model's choice (notes/assumptions/30.md), as is where conditional items stand
(notes/assumptions/14.md). -/
def closureItems (panels : List PanelRec) (c : Closure) : Bytes :=
  [byteOf c.id] ++ encSet 1 c.lanes ++ [byteOf c.first, byteOf c.last, byteOf c.taperCount, byteOf c.requestedCap, byteOf c.cap,
      byteOf c.dwell, c.state.code]
    ++ byteOf c.taper.length :: c.taper.map byteOf ++ encMarks c ++ encClock c.created ++ encOpt 4 encClock c.dwellEntry
    ++ (if c.state = .arrows ∨ c.state = .dwell ∨ c.state = .closed then
          byteOf c.duties.length :: c.duties.flatMap (fun d =>
            [byteOf d.gantry, byteOf d.lane, d.kind.code, if d.settled then 1 else 0])
        else [])
    ++ byteOf c.lanes.length :: c.lanes.flatMap (fun l => encOpt 1 (fun t => [byteOf t])
        (if c.state = .releasing then none else
          (c.taper.filter (fun t => (panelAt panels t l).all (fun r => r.health != .failed))).max?))

/-- R177: the encoding of each type of item: values wider than a byte high byte first, signed ones in two's complement, an
optional item behind its presence byte, a list behind its count, a set as bits. -/
def ItemsEncoded : Prop :=
  (∀ c : Clock, encClock c = twoBytes (c.toNat / 65536) ++ twoBytes c.toNat)
  ∧ (∀ v : Int, -32768 ≤ v → v ≤ 32767 → encS16 v = twoBytes (v % 65536).toNat)
  ∧ (∀ (α : Type) (width : Nat) (enc : α → Bytes) (v : α),
      encOpt width enc none = 0 :: List.replicate width 0 ∧ encOpt width enc (some v) = 1 :: enc v)
  ∧ (∀ (base : Nat) (l : List Nat), (∀ n ∈ l, base ≤ n) →
      ∃ x, encSet base l = [x] ∧ ∀ n, n < 8 → (x.getLsbD n = true ↔ n + base ∈ l))
  ∧ (∀ a : Aspect, encAspect a = [a.bytes.code, a.bytes.speed, a.bytes.legend])
  ∧ ∀ c : Closure, ∃ x, encMarks c = [x] ∧ x.toNat < 16 ∧ x.getLsbD 0 = c.full ∧ x.getLsbD 1 = c.taperBlocked
      ∧ x.getLsbD 2 = c.taperLost ∧ x.getLsbD 3 = c.slow

/-- 10.5: the codes of the enumerations that replies and reports carry. -/
def CodesHold : Prop :=
  [OpState.stopped, .running].map OpState.code = [0, 1]
  ∧ [ResetCause.powerOn, .supplyDip, .resetPin, .hostRequest].map ResetCause.code = [0, 1, 2, 3]
  ∧ [Placement.none, .placed, .merged, .notPlaced].map Placement.code = [0, 1, 2, 3]
  ∧ [EndReason.holdExpired, .cleared, .ownersDisabled, .stopped].map EndReason.code = [0, 1, 2, 3]
  ∧ [ClosureState.requested, .arrows, .dwell, .closed, .releasing].map ClosureState.code = [0, 1, 2, 3, 4]
  ∧ [DutyKind.arrow, .capped, .none].map DutyKind.code = [0, 1, 2]
  ∧ [Health.healthy, .suspect, .failed].map Health.code = [0, 1, 2]
  ∧ [TxOutcome.good, .mismatch, .noReply].map TxOutcome.code = [0, 1, 2]
  ∧ [LineMode.idle, .busy, .gap, .quiesced].map LineMode.code = [0, 1, 2, 3]
  ∧ [Supply.normal, .low].map Supply.code = [0, 1]
  ∧ [LineId.a, .b, .c, .d].map lineCode = [0, 1, 2, 3]
  ∧ (∀ id, [Binding.operator, .closure id, .warning, .congestion, .initial, .maximum].map encBinding =
      [[0], [1, byteOf id], [2], [3], [4], [5]])
  ∧ (∀ id, [Cause.plan, .operator, .warning, .closure id, .failed, .recovered].map encCause =
      [[0], [1], [2], [3, byteOf id], [4], [5]])
  ∧ ∀ p g, [FreezeSource.request, .trigger p g].map encFreezeSource = [[0], [1, byteOf p, byteOf g]]

end Sys2Proof.Machine
end

