-- ==== Sys2Proof/Certificates/Slice0/Obligations.lean ====
section
/-! DEFINITION. The statements for the provers. A request statement says the whole of what its command leaves: the blocks (`u`),
the reports placed, the reply, and everything else as it was (`Acts`, in Sys2Proof/Safety.lean). Every statement by `Acts`,
`OnlyAnswers`, `Tells` or `RefusesFirst` says, through `Replies`, that the receiver is left in HUNT: that clause is the model's
choice (notes/assumptions/6.md). -/

open Sys2Proof Sys2Proof.Machine

/-! ## The queue and reset -/

/-- The command at the front of the queue runs on the state with the queue's rest. The model's choice
(notes/assumptions/1.md): with nothing waiting the block idles. -/
def Obligations.StepRunsTheFrontCommand : Prop :=
  (∀ (s : State) (i : Instr) (rest : List Instr),
    s.pending = i :: rest → step s = exec i { s with pending := rest })
  ∧ ∀ s : State, s.pending = [] → step s = .next s

/-- 1.1, 1.2, R16, R17, R119, R124, R139, R154, R171: the values of power-on, with every line NORMAL, and RESTART under way.
The levels of the pins are the model's choice (notes/assumptions/4.md, 5.md). -/
def Obligations.ResetHoldsThePowerOnValues : Prop :=
  let s := State.reset
  s.params = ⟨0, 0, 10, 20, 3, 3, 8, 4, 1500, 2, 3, 2, 10, 60, 120⟩ ∧ s.gantries = [] ∧ s.speeds = none ∧ s.bands = none
  ∧ (∀ p, p < 8 → s.slot p = ⟨none, false⟩) ∧ s.history = ⟨[], 0, none⟩
  ∧ Restarted s s .powerOn ∧ s.pending = []

/-- The invariants hold right after a reset. The orders in which the closure table and the warning table are held are the
model's choice (notes/assumptions/8.md). -/
def Obligations.ResetMeetsTheInvariants : Prop :=
  let s := State.reset
  LinkBounded s ∧ HistoryBounded s ∧ ClosuresLegal s ∧ WarningsLegal s ∧ InstsLegal s ∧ StoppedIsEmpty s ∧ LinesLegal s
  ∧ QueuesBounded s ∧ CountsLegal s ∧ PanelsDistinct s ∧ MapHeld s ∧ WeightsLegal s ∧ TrafficLegal s ∧ PlanLawful s ∧ AspectsLawful s

/-! ## Invariants that every step keeps -/

/-- R149, R159, R160, R162, R165, R166. -/
def Obligations.LinkAndHistoryStayBounded : Prop := KeptByEveryStep (fun s => LinkBounded s ∧ HistoryBounded s)

/-- R86, R97, R100: the closure table stays legal. That it is held in rising id is the model's choice
(notes/assumptions/8.md): R86 gives the table no order, and R107 orders the reply alone. -/
def Obligations.ClosureTableStaysLegal : Prop := KeptByEveryStep ClosuresLegal

/-- R7, R13, R44, R51, R56: the warning table and the working records stay legal, and STOPPED holds none. That warnings are
held in rising gantry order, and their owners in rising number, is the model's choice (notes/assumptions/8.md): R56 gives the
records no order, and R61 orders STOP's reports alone. -/
def Obligations.WarningsAndWorkingRecordsStayLegal : Prop :=
  KeptByEveryStep (fun s => StoppedIsEmpty s ∧ WarningsLegal s ∧ InstsLegal s)

/-- R124, R125. -/
def Obligations.LinesStayLegal : Prop :=
  KeptByEveryStep (fun s => PanelsDistinct s ∧ LinesLegal s ∧ QueuesBounded s ∧ CountsLegal s)

/-- 2.1, R27, R31, R36. -/
def Obligations.TrafficStaysInRange : Prop := KeptByEveryStep (fun s => WeightsLegal s ∧ TrafficLegal s)

/-- R79: the two laws of the plan hold at every moment of RUNNING. -/
def Obligations.SpeedPlanLawsAlwaysHold : Prop := KeptByEveryStep (fun s => PanelsDistinct s ∧ MapHeld s ∧ PlanLawful s)

/-- R112, R114: no cross without its closure, no failed panel lit. That the closure table is held in rising id is the model's
choice (notes/assumptions/8.md). -/
def Obligations.CrossesAndFailedPanelsStayLawful : Prop :=
  KeptByEveryStep (fun s => PanelsDistinct s ∧ ClosuresLegal s ∧ AspectsLawful s)

/-! ## Frames in (R156 to R161, R170, R175) -/

/-- The characters of a good frame, one after the other, do what the request it carries does: the frame is assembled, its
check passes, and no byte of the tag or body is lost (R155, R157, R173, R174). What a request command stands for is the
model's choice (notes/assumptions/6.md). -/
def Obligations.WireFrameActsAsItsRequest : Prop :=
  ∀ (k : RequestKind) (tag flags : Byte) (body : Bytes) (s : State),
    body.length ≤ 240 → s.link.rx = .hunt → s.nrstLow = false →
      feed (wireOf k.code tag flags body) s = exec (requestInstr k tag body) s

/-- The rows of R157's table, and the two rows of the CRC test; while NRST is low no character is received (R156). The model's
choices: a discard is counted after RESET has been acted on too (notes/assumptions/18.md), and what a request command stands
for, in the last two clauses (notes/assumptions/6.md). -/
def Obligations.HostCharacterMovesTheReceiver : Prop :=
  ∀ (s : State) (c : Byte),
    let moves := fun (r : Receiver) => exec (.hostCharacterReceived c) s = .next { s with link := { s.link with rx := r } }
    let discarded := exec (.hostCharacterReceived c) s =
      .next { s with link := { s.link with rx := .hunt, frameDiscards := min (s.link.frameDiscards + 1) 65535 } }
    (s.nrstLow = true → exec (.hostCharacterReceived c) s = .next s)
    ∧ (s.nrstLow = false →
        (s.link.rx = .hunt → c = 0x7E → moves (.header []))
        ∧ (s.link.rx = .hunt → c ≠ 0x7E → exec (.hostCharacterReceived c) s = .next s)
        ∧ (s.link.rx = .header [] → 240 < c.toNat → discarded)
        ∧ (s.link.rx = .header [] → c.toNat ≤ 240 → moves (.header [c]))
        ∧ (∀ len, s.link.rx = .header [len] → moves (.header [len, c]))
        ∧ (∀ len kind, s.link.rx = .header [len, kind] → moves (.header [len, kind, c]))
        ∧ (∀ len kind tag, s.link.rx = .header [len, kind, tag] → len = 0 → moves (.check ⟨len, kind, tag, c⟩ [] none))
        ∧ (∀ len kind tag, s.link.rx = .header [len, kind, tag] → len ≠ 0 → moves (.body ⟨len, kind, tag, c⟩ []))
        ∧ (∀ h kept, s.link.rx = .body h kept → kept.length + 1 < h.length.toNat → moves (.body h (kept ++ [c])))
        ∧ (∀ h kept, s.link.rx = .body h kept → kept.length + 1 = h.length.toNat → moves (.check h (kept ++ [c]) none))
        ∧ (∀ h body, s.link.rx = .check h body none → moves (.check h body (some c)))
        ∧ (∀ h body f, s.link.rx = .check h body (some f) →
            [f, c] ≠ checkBytes (h.length :: h.kind :: h.tag :: h.flags :: body) → discarded)
        ∧ (∀ h body f k, s.link.rx = .check h body (some f) →
            [f, c] = checkBytes (h.length :: h.kind :: h.tag :: h.flags :: body) → h.kind = RequestKind.code k →
            exec (.hostCharacterReceived c) s = exec (requestInstr k h.tag body) s)
        ∧ (∀ h body f, s.link.rx = .check h body (some f) →
            [f, c] = checkBytes (h.length :: h.kind :: h.tag :: h.flags :: body) → requestKindOf h.kind = none →
            exec (.hostCharacterReceived c) s = exec (.unknownKind h.kind h.tag body) s))

/-- R156, R158, R159: a bad frame is discarded and counted, unanswered; in HUNT a framing error and a gap are ignored. The
model's choices: FRAME_DISCARD leaves the receiver in HUNT (notes/assumptions/6.md), and a discard is counted after RESET has
been acted on too (notes/assumptions/18.md). -/
def Obligations.BadFramesAreDiscardedAndCounted : Prop :=
  ∀ s : State, s.nrstLow = false →
    let d := { s with link := { s.link with rx := .hunt, frameDiscards := min (s.link.frameDiscards + 1) 65535 } }
    exec .frameDiscard s = .next d
    ∧ (s.link.rx ≠ .hunt → exec .framingError s = .next d ∧ exec .interByteGapExpiry s = .next d)
    ∧ (s.link.rx = .hunt → exec .framingError s = .next s ∧ exec .interByteGapExpiry s = .next s)

/-- R160: at a full reply FIFO a request of any kind is discarded, with OVERRUN and its count; nothing else changes. R170:
once RESET has been acted on, every request is lost, with no reply, no OVERRUN and no count. That a request command leaves the
receiver in HUNT is the model's choice (notes/assumptions/6.md). -/
def Obligations.RequestsAreLostAtAFullFifoOrAfterReset : Prop :=
  ∀ s : State, s.nrstLow = false →
    let d := { s with link := { s.link with
      rx := .hunt, overrun := true, requestDiscards := min (s.link.requestDiscards + 1) 65535 } }
    let lost := { s with link := { s.link with rx := .hunt } }
    (s.link.resetPending = false → 4 ≤ s.link.replies.length →
      exec .requestDiscard s = .next d
      ∧ (∀ k tag body, body.length ≤ 240 → exec (requestInstr k tag body) s = .next d)
      ∧ ∀ kind tag body, body.length ≤ 240 → exec (.unknownKind kind tag body) s = .next d)
    ∧ (s.link.resetPending = true →
      (∀ k tag body, body.length ≤ 240 → exec (requestInstr k tag body) s = .next lost)
      ∧ ∀ kind tag body, body.length ≤ 240 → exec (.unknownKind kind tag body) s = .next lost)

/-- R161, R175: the codes of the requests; a kind that is none of them, 0x80 and above among them, is answered UNKNOWN_KIND
with reply kind 0xFF, and nothing else happens. That a request command leaves the receiver in HUNT is the model's choice
(notes/assumptions/6.md). -/
def Obligations.UnknownKindIsAnswered : Prop :=
  (∀ (s : State) (kind tag : Byte) (body : Bytes), s.receptive → body.length ≤ 240 →
    kind ∉ ([0x01, 0x02, 0x03, 0x10, 0x11, 0x12, 0x13, 0x14, 0x15, 0x20, 0x30, 0x31, 0x32, 0x33, 0x34, 0x40, 0x41, 0x42,
      0x50, 0x51, 0x60, 0x61, 0x68, 0x69, 0x6A, 0x70, 0x71] : List Byte) →
    OnlyAnswers (.unknownKind kind tag body) s 0xFF tag [0x01])
  ∧ ∀ k, requestKindOf k.code = some k ∧ k.code.toNat < 0x80

/-- R161, R175: a body whose length does not fit the kind is answered BAD_LENGTH, and nothing else happens. That a request
command leaves the receiver in HUNT is the model's choice (notes/assumptions/6.md). -/
def Obligations.MisfitBodyIsAnsweredBadLength : Prop :=
  ∀ (k : RequestKind) (s : State) (tag : Byte) (body : Bytes),
    s.receptive → body.length ≤ 240 → neededLength k body ≠ some body.length →
      OnlyAnswers (requestInstr k tag body) s (k.code + 0x80) tag [0x02]

/-! ## Frames out, and RESET (R163, R164, R170) -/

/-- R163, R164, R170: at the end of a frame, and at the end of any event where it is free, the transmitter starts the oldest
reply, else the oldest urgent report, else the oldest routine report, with the flags the frame carries and clears; once RESET
has been acted on it chooses no report; a frame under way is not disturbed. While NRST is low nothing starts. R165, R166: what
placing a report does, row by row. R175, R177: the kind of every report and its items in order (R19, R55, R62, R106, R137, R139,
R150, R166). The layout the spec leaves open is the model's choice (notes/assumptions/14.md). -/
def Obligations.FrameEndStartsTheOldestWaiting : Prop :=
  (∀ (s : State) (x : TxFrame), s.nrstLow = false → s.link.tx = some x →
    (s.link.resetPending = false ∨ x.frame.kind ≠ 0x83 ∨ x.frame.body ≠ [0x00]) →
    ∃ t, exec .frameSent s = .next t ∧ Chooses { s with link := { s.link with tx := none } } t)
  ∧ (∀ s : State, (s.nrstLow = false → s.link.tx = none → Chooses s s.transmit)
      ∧ (s.nrstLow = true ∨ s.link.tx ≠ none → s.transmit = s))
  ∧ (∀ (l : Link) (r : Report), Placing l r (l.place r))
  ∧ ∀ (now : Clock) (panels : List PanelRec) (r : Report), (r.kind, r.body now panels) = reportItems now panels r

/-- R170, R17: RESET's reply is placed, and from then on the receiver discards and the transmitter chooses no report; when the
last check byte of that reply has been sent the part resets, cause HOST_REQUEST, keeping the map, the programs and the
history. That a request command leaves the receiver in HUNT is the model's choice (notes/assumptions/6.md). -/
def Obligations.ResetIsAnsweredThenTakesEffect : Prop :=
  (∀ (s : State) (tag : Byte), s.receptive →
    ∃ t, exec (.reset tag []) s = .next t ∧ SameBlocks s t ∧ Replies s t ⟨0x83, tag, [0x00]⟩ ∧ Reported s t []
      ∧ t.link.resetPending = true)
  ∧ ∀ (s : State) (x : TxFrame), s.nrstLow = false → s.link.tx = some x → s.link.resetPending = true →
      x.frame.kind = 0x83 → x.frame.body = [0x00] →
      ∃ t, exec .frameSent s = .next t ∧ KeptThroughReset s t ∧ Restarted s t .hostRequest

/-- R15, R16, R19: a power-on or supply-dip reset clears the map, the programs and the history too. -/
def Obligations.SupplyResetsClearEverything : Prop :=
  ∀ (s : State), s.nrstLow = false →
    ∀ i cause, (i = Instr.powerOn ∧ cause = ResetCause.powerOn) ∨ (i = Instr.supplyDip ∧ cause = ResetCause.supplyDip) →
      ∃ t, exec i s = .next t ∧ Restarted s t cause
        ∧ t.params = ⟨0, 0, 10, 20, 3, 3, 8, 4, 1500, 2, 3, 2, 10, 60, 120⟩ ∧ t.gantries = [] ∧ t.speeds = none
        ∧ t.bands = none ∧ t.programs = List.replicate 8 ⟨none, false⟩ ∧ t.history = ⟨[], 0, none⟩
        ∧ t.sense = s.sense ∧ t.pending = s.pending

/-- R15, R17, R18, R145: while NRST is low the part is held in reset, every transmit enable released, receives nothing and sends
nothing; when NRST rises it begins again, cause RESET_PIN. A request sent meanwhile changes nothing (the model's choice, notes/assumptions/2.md). -/
def Obligations.NrstHoldsThePartInReset : Prop :=
  ∀ s : State,
    (∃ t, exec .nrstAssert s = .next t ∧ t.nrstLow = true ∧ RuntimeCleared t ∧ KeptThroughReset s t
      ∧ t.resetCause = s.resetCause ∧ t.link = ⟨.hunt, [], [], [], false, false, 0, 0, none, false⟩
      ∧ ∀ l, t.lines.get l = ⟨.idle, false, (s.lines.get l).supply, [], none⟩)
    ∧ (s.nrstLow = true →
        (∃ t, exec .nrstRelease s = .next t ∧ KeptThroughReset s t ∧ Restarted s t .resetPin)
        ∧ (∀ k tag body, exec (requestInstr k tag body) s = .next s)
        ∧ ∀ c, exec (.hostCharacterReceived c) s = .next s)

/-! ## Requests that tell -/

/-- R168: IDENTIFY tells the vendor, the part, the revision and the reset cause. R169: STATUS tells the snapshot, item by
item. Nothing changes. The freeze time and source are carried only when FROZEN, and no count byte stands before the four lines
(the model's choices, notes/assumptions/14.md). That a request command leaves the receiver in HUNT is the model's choice
(notes/assumptions/6.md). -/
def Obligations.IdentifyAndStatusTellTheirItems : Prop :=
  ∀ (s : State) (tag : Byte), s.receptive →
    OnlyAnswers (.identify tag []) s 0x81 tag
      [0x00, 7, 0x50, 0x65, 0x6C, 0x6F, 0x72, 0x69, 0x6E,
       11, 0x43, 0x6F, 0x72, 0x62, 0x65, 0x6B, 0x20, 0x43, 0x41, 0x33, 0x32, 1,
       match s.resetCause with
       | .powerOn => 0
       | .supplyDip => 1
       | .resetPin => 2
       | .hostRequest => 3]
    ∧ OnlyAnswers (.status tag []) s 0x82 tag
      ([0x00, s.operating.code] ++ encClock s.clock ++ [s.resetCause.code, byteOf s.params.gantryCount,
        byteOf s.params.laneCount, byteOf s.operatorCap, byteOf s.closures.length, byteOf s.warnings.length]
       ++ encSet 0 ((List.range 8).filter (fun p => (s.slot p).enabled))
       ++ [LineId.a, .b, .c, .d].flatMap (fun l =>
            [(s.lines.get l).mode.code, if (s.lines.get l).quiescePending then 1 else 0, (s.lines.get l).supply.code,
             byteOf (s.lines.get l).queue.length,
             byteOf ((s.lines.get l).queue.filter (fun e => e.cls == .safety)).length])
       ++ [if s.history.frozen.isSome then 1 else 0] ++ twoBytes s.history.ring.length ++ twoBytes s.history.written
       ++ (match s.history.frozen with
           | some f => encClock f.time ++ encFreezeSource f.source
           | none => [])
       ++ [byteOf s.link.replies.length, byteOf s.link.urgent.length, byteOf s.link.routine.length]
       ++ twoBytes s.link.frameDiscards ++ twoBytes s.link.requestDiscards
       ++ [if s.link.overrun then 1 else 0, if s.link.reportsLost then 1 else 0])

/-- R40, R84, R123, R147: GANTRY_QUERY answers OK and its sections in order, PANEL_QUERY the section of one panel; an index
not below G or undefined, or a panel the gantry lacks, is refused. R107: CLOSURE_QUERY of id 0 lists every record in rising id
(ClosuresLegal holds the table so); an id held is told whole; an id not held is NO_SUCH_ID. Nothing changes. The items of each
section stand in order in `trafficItems`, `planItems`, `panelItems` and `closureItems`; R177, 10.5: how each type of item is
encoded, and the codes of the enumerations. The model's choices: of a reply above 240 bytes, what follows the sections that
fit (notes/assumptions/3.md); the layout the spec leaves open, presence bytes and the absence of a count byte before the panel
sections and the lane entries among it (notes/assumptions/14.md); the two codes of an entry's class (notes/assumptions/15.md);
the place of the operator legend (notes/assumptions/16.md); the order of duties and lead panels (notes/assumptions/30.md).
That a request command leaves the receiver in HUNT is the model's choice (notes/assumptions/6.md). -/
def Obligations.QueriesOnlyRead : Prop :=
  ItemsEncoded ∧ CodesHold ∧ ∀ (s : State) (tag g p id : Byte), s.receptive →
    (∀ r, g.toNat < s.params.gantryCount → s.gantry? g.toNat = some r →
      Tells (.gantryQuery tag [g]) s 0xE0 tag
        ([0x00] :: trafficItems s g.toNat :: planItems s g.toNat
          :: r.lanes.zipIdx.map (fun x => panelItems s ⟨g.toNat, x.2 + 1⟩ x.1)
          ++ r.message.toList.map (panelItems s ⟨g.toNat, 0⟩) ++ [[byteOf (s.legendAt g.toNat)]])
      ∧ (∀ a, (if p = 0 then r.message else r.lanes[p.toNat - 1]?) = some a →
          Tells (.panelQuery tag [g, p]) s 0xE1 tag [[0x00], panelItems s ⟨g.toNat, p.toNat⟩ a])
      ∧ ((if p = 0 then r.message else r.lanes[p.toNat - 1]?) = none →
          OnlyAnswers (.panelQuery tag [g, p]) s 0xE1 tag [0x04, 2]))
    ∧ ((s.params.gantryCount ≤ g.toNat ∨ s.gantry? g.toNat = none) →
        OnlyAnswers (.gantryQuery tag [g]) s 0xE0 tag [0x04, 1]
        ∧ OnlyAnswers (.panelQuery tag [g, p]) s 0xE1 tag [0x04, 1])
    ∧ (id = 0 → Tells (.closureQuery tag [id]) s 0xC2 tag
        [[0x00], byteOf s.closures.length :: s.closures.flatMap (fun c => [byteOf c.id, c.state.code])])
    ∧ (∀ c, id ≠ 0 → closureOf s.closures id.toNat = some c →
        Tells (.closureQuery tag [id]) s 0xC2 tag [[0x00], closureItems s.panels c])
    ∧ (id ≠ 0 → closureOf s.closures id.toNat = none → OnlyAnswers (.closureQuery tag [id]) s 0xC2 tag [0x08])

/-! ## The map (R1 to R5) -/

/-- R1, R2: the fifteen parameters are checked in rising field number; in range they replace the held ones, and the gantry
table takes the new size: no record is kept where the lane count changes, otherwise those below the new G are. That a request
command leaves the receiver in HUNT is the model's choice (notes/assumptions/6.md). -/
def Obligations.MapParamsReplacesTheParameters : Prop :=
  ∀ (s : State) (tag g n p drop hold stale ks ko rh rl band fail rec deg fh fl eh el : Byte),
    s.receptive → s.operating = .stopped →
    let reach := rh.toNat * 256 + rl.toNat
    let refresh := fh.toNat * 256 + fl.toNat
    let establish := eh.toNat * 256 + el.toNat
    let inRange := fun (lo hi v : Nat) => decide (lo ≤ v ∧ v ≤ hi)
    let fields := [g.toNat == 0 || inRange 2 32 g.toNat, n.toNat == 0 || inRange 2 5 n.toNat, inRange 5 60 p.toNat,
      drop.toNat == 20 || drop.toNat == 30 || drop.toNat == 40, inRange 1 15 hold.toNat, inRange 1 10 stale.toNat,
      inRange 1 16 ks.toNat, inRange 1 16 ko.toNat, inRange 0 5000 reach, inRange 1 6 band.toNat, inRange 2 8 fail.toNat,
      inRange 1 8 rec.toNat, inRange 1 50 deg.toNat, inRange 10 300 refresh, inRange 30 600 establish]
    let i := Instr.mapParams tag [g, n, p, drop, hold, stale, ks, ko, rh, rl, band, fail, rec, deg, fh, fl, eh, el]
    (∀ k, fields.findIdx? (fun ok => !ok) = some k → OnlyAnswers i s 0x90 tag [0x04, byteOf (k + 1)])
    ∧ (fields.findIdx? (fun ok => !ok) = none →
        ∃ table : List (Option GantryRec), table.length = g.toNat
          ∧ (∀ h, h < g.toNat →
              table[h]? = some (if n.toNat = s.params.laneCount then s.gantry? h else none))
          ∧ Acts i s 0x90 tag [0x00]
              { s with
                gantries := table
                params := ⟨g.toNat, n.toNat, p.toNat, drop.toNat, hold.toNat, stale.toNat, ks.toNat, ko.toNat, reach,
                  band.toNat, fail.toNat, rec.toNat, deg.toNat, refresh, establish⟩ } [])

/-- R3: the record the body spells, lane by lane, takes the place of the one at its index; of any body of fitting length the
first field out of its range refuses it. That a request command leaves the receiver in HUNT is the model's choice
(notes/assumptions/6.md). -/
def Obligations.MapGantryReplacesTheRecord : Prop :=
  ∀ (s : State) (tag : Byte), s.receptive → s.operating = .stopped →
    (∀ (g x y : Byte) (r : GantryRec),
      g.toNat < s.params.gantryCount → r.lanes.length = s.params.laneCount → 2 ≤ r.lanes.length → r.lanes.length ≤ 5 →
      r.chainage ≤ 65535 → (∀ a ∈ r.lanes, 1 ≤ a.address ∧ a.address ≤ 126) →
      (∀ a, r.message = some a → 1 ≤ a.address ∧ a.address ≤ 126) →
        Acts (.mapGantry tag (gantryBody g r x y)) s 0x91 tag [0x00]
          { s with gantries := s.gantries.set g.toNat (some r) } [])
    ∧ ∀ body : Bytes, body.length ≤ 240 → neededLength .mapGantry body = some body.length →
        let at_ := fun (k : Nat) => (body.getD k 0).toNat
        let n := at_ 3
        let isLine := fun (v : Nat) => decide (v ≤ 3)
        let isAddress := fun (v : Nat) => decide (1 ≤ v ∧ v ≤ 126)
        RefusesFirst (.mapGantry tag body) s 0x91 tag
          ([(1, decide (at_ 0 < s.params.gantryCount)), (3, decide (s.params.laneCount ≠ 0 ∧ n = s.params.laneCount))]
            ++ (List.range n).flatMap (fun l =>
                [(2 * l + 4, isLine (at_ (2 * l + 4))), (2 * l + 5, isAddress (at_ (2 * l + 5)))])
            ++ [(14, decide (at_ (2 * n + 4) ≤ 1)),
                (15, decide (at_ (2 * n + 4) = 0) || isLine (at_ (2 * n + 5))),
                (16, decide (at_ (2 * n + 4) = 0) || isAddress (at_ (2 * n + 6)))])

/-- R4, R5: a set that rises by multiples of 10 within 20..130 becomes the displayable set in full; 1..6 bands in range
replace the band table in full; of any body of fitting length the first field out of its range refuses it. That a request
command leaves the receiver in HUNT is the model's choice (notes/assumptions/6.md). -/
def Obligations.MapTablesAreReplacedInFull : Prop :=
  ∀ (s : State) (tag : Byte), s.receptive → s.operating = .stopped →
    (∀ values : List Nat, 2 ≤ values.length → values.length ≤ 8 → values.Pairwise (· < ·) →
      (∀ v ∈ values, 20 ≤ v ∧ v ≤ 130 ∧ v % 10 = 0) →
      Acts (.mapSpeeds tag (byteOf values.length :: values.map byteOf)) s 0x92 tag [0x00]
        { s with speeds := some values } [])
    ∧ (∀ bands : List Band, 1 ≤ bands.length → bands.length ≤ 6 →
      (∀ b ∈ bands, b.occOn ≤ 1000 ∧ b.occOff ≤ 1000 ∧ b.spdOn ≤ 250 ∧ b.spdOff ≤ 250 ∧ b.limit ≤ 255) →
      Acts (.mapBands tag (byteOf bands.length :: bands.flatMap bandBytes)) s 0x93 tag [0x00]
        { s with bands := some bands } [])
    ∧ ∀ body : Bytes, body.length ≤ 240 →
        let at_ := fun (k : Nat) => (body.getD k 0).toNat
        let pair := fun (k : Nat) => at_ k * 256 + at_ (k + 1)
        (neededLength .mapSpeeds body = some body.length →
          RefusesFirst (.mapSpeeds tag body) s 0x92 tag
            ((1, decide (2 ≤ at_ 0 ∧ at_ 0 ≤ 8)) :: (List.range (at_ 0)).map (fun k =>
              (k + 2, decide (20 ≤ at_ (k + 1) ∧ at_ (k + 1) ≤ 130 ∧ at_ (k + 1) % 10 = 0 ∧ (k = 0 ∨ at_ k < at_ (k + 1)))))))
        ∧ (neededLength .mapBands body = some body.length →
          RefusesFirst (.mapBands tag body) s 0x93 tag
            ((1, decide (1 ≤ at_ 0 ∧ at_ 0 ≤ 6)) :: (List.range (at_ 0)).flatMap (fun b =>
              [(5 * b + 2, decide (pair (7 * b + 1) ≤ 1000)), (5 * b + 3, decide (pair (7 * b + 3) ≤ 1000)),
               (5 * b + 4, decide (at_ (7 * b + 5) ≤ 250)), (5 * b + 5, decide (at_ (7 * b + 6) ≤ 250))])))

/-- R1, R7: a map request in RUNNING is refused with WRONG_STATE, and the map is unchanged. That a request command leaves the
receiver in HUNT is the model's choice (notes/assumptions/6.md). -/
def Obligations.MapIsFrozenWhileRunning : Prop :=
  ∀ (s : State) (k : RequestKind) (tag : Byte) (body : Bytes), s.receptive → s.operating = .running →
    k ∈ [RequestKind.mapParams, .mapGantry, .mapSpeeds, .mapBands, .start] → body.length ≤ 240 →
    neededLength k body = some body.length →
      OnlyAnswers (requestInstr k tag body) s (k.code + 0x80) tag [0x03]

/-! ## START and STOP (R10 to R13, R61, R70, R119) -/

/-- R10: START refuses exactly the maps that do not hold together, with BAD_MAP, the item of the first check that fails, in
the order of the table, and its detail, and then nothing changes; of one that holds together it answers OK. That a request
command leaves the receiver in HUNT is the model's choice (notes/assumptions/6.md). -/
def Obligations.StartRefusesAnInconsistentMap : Prop :=
  ∀ (s : State) (tag v : Byte), s.receptive → s.operating = .stopped → s.gantries.length = s.params.gantryCount →
    let refused := fun (item detail : Nat) => OnlyAnswers (.start tag [v]) s 0x94 tag [0x05, byteOf item, byteOf detail]
    let panels := mapPanels s.gantries
    let used := fun (k : Nat) => (panels.take k).map Prod.snd
    let onLine := fun (l : LineId) => (panels.filter (fun x => x.2.line == l)).length
    let bands := s.bands.getD []
    -- the first item of 11 to 14 that fails for the band at a place of the table
    let bandFault := fun (k item : Nat) => ∃ b, bands[k]? = some b ∧
      item = (if b.limit ∉ s.displayable then 11
        else if 1 ≤ k ∧ (bands.map (·.limit)).getD (k - 1) 0 < b.limit then 12
        else if b.occOn ≤ b.occOff then 13
        else if b.spdOff ≤ b.spdOn then 14 else 0)
    (¬ MapConsistent s → ∃ item detail, 1 ≤ item ∧ item ≤ 14 ∧ refused item detail)
    ∧ (MapConsistent s → ∃ u, Acts (.start tag [v]) s 0x94 tag [0x00] u [])
    ∧ (s.params.gantryCount = 0 → refused 1 0)
    ∧ (s.params.gantryCount ≠ 0 → s.params.laneCount = 0 → refused 2 0)
    ∧ (s.params.gantryCount ≠ 0 → s.params.laneCount ≠ 0 →
        (∀ g, g < s.params.gantryCount → s.gantry? g = none → (∀ m, m < g → s.gantry? m ≠ none) → refused 3 g)
        ∧ ((∀ g, g < s.params.gantryCount → s.gantry? g ≠ none) →
            (∀ g, 1 ≤ g → g < s.params.gantryCount →
              (∀ m, 1 ≤ m → m < g → s.chainage (m - 1) + 100 ≤ s.chainage m) →
              (s.chainage g ≤ s.chainage (g - 1) → refused 4 g)
              ∧ (s.chainage (g - 1) < s.chainage g → s.chainage g < s.chainage (g - 1) + 100 → refused 5 g))
            ∧ ((∀ m, 1 ≤ m → m < s.params.gantryCount → s.chainage (m - 1) + 100 ≤ s.chainage m) →
                (∀ k p a, panels[k]? = some (p, a) → a ∈ used k →
                  (∀ j q b, j < k → panels[j]? = some (q, b) → b ∉ used j) → refused 6 p.gantry)
                ∧ ((panels.map Prod.snd).Nodup →
                    (64 < onLine .a → refused 7 0)
                    ∧ (onLine .a ≤ 64 → 64 < onLine .b → refused 7 1)
                    ∧ (onLine .a ≤ 64 → onLine .b ≤ 64 → 64 < onLine .c → refused 7 2)
                    ∧ (onLine .a ≤ 64 → onLine .b ≤ 64 → onLine .c ≤ 64 → 64 < onLine .d → refused 7 3)
                    ∧ ((∀ l, onLine l ≤ 64) →
                        (s.speeds = none → refused 8 0)
                        ∧ (s.speeds ≠ none → s.bands = none → refused 9 0)
                        ∧ (s.speeds ≠ none → s.bands ≠ none →
                            (∀ k x y, s.displayable[k]? = some x → s.displayable[k + 1]? = some y →
                              x + s.params.maxDrop < y →
                              (∀ j u w, j < k → s.displayable[j]? = some u → s.displayable[j + 1]? = some w →
                                w ≤ u + s.params.maxDrop) → refused 10 (k + 2))
                            ∧ ((∀ j u w, s.displayable[j]? = some u → s.displayable[j + 1]? = some w →
                                w ≤ u + s.params.maxDrop) →
                                ∀ k item, bandFault k item → item ≠ 0 → (∀ j, j < k → bandFault j 0) →
                                  refused item (k + 1))))))))

/-- R11, R12, R70, R109, R119: START of a map that holds together runs the corridor from a known state: the plan is an event run
over records that show the rounded initial limit, which is a demand in it; the desired aspects are what their sources ask for,
with no cross and no arrow. That a request command leaves the receiver in HUNT is the
model's choice (notes/assumptions/6.md). -/
def Obligations.StartRunsTheCorridor : Prop :=
  ∀ (s : State) (tag v : Byte), s.receptive → s.operating = .stopped → MapHeld s → MapConsistent s →
    ∃ u, Acts (.start tag [v]) s 0x94 tag [0x00] u []
      ∧ u.operating = .running ∧ u.clock = 0 ∧ u.planTimer = 0 ∧ u.warnings = [] ∧ u.closures = []
      ∧ u.traffic = List.replicate s.params.gantryCount
          ⟨true, 0, none, 0, none, none, none, none, List.replicate s.params.laneCount ⟨false, none, none, none, none⟩⟩
      ∧ (∀ i, i ∈ u.insts ↔ ∃ p, s.enabledProgram i.program = some p ∧ i.program < 8 ∧ i.gantry < s.params.gantryCount
          ∧ p.first ≤ i.gantry ∧ i.gantry ≤ p.last ∧ i.counter = p.preset ∧ i.window = 0 ∧ i.fired = false)
      ∧ u.plan = State.planRun
          { u with plan := List.replicate s.params.gantryCount (PlanRec.from (roundInto s.displayable v.toNat)) }
          false (some v.toNat)
      ∧ (∀ g, g < s.params.gantryCount →
          (u.planAt g).demand ≤ v.toNat ∧ (u.planAt g).shown = (u.planAt g).target ∧ (u.planAt g).riseWait = 0
          ∧ (u.planAt g).shown ≤ roundInto s.displayable v.toNat)
      ∧ u.panels = (mapPanels s.gantries).map
          (fun x => ⟨x.1, x.2, none, .healthy, 0, 0, false, none, none, none, 0⟩)
      ∧ (∀ l, u.lines.get l = { s.lines.get l with queue :=
          ((mapPanels s.gantries).filter (fun x => x.2.line == l)).map (fun x => ⟨x.2.address, .safety⟩) })
      ∧ u.arrowMap = [] ∧ u.crossMap = []
      ∧ u.aspects = (mapPanels s.gantries).map (fun x => ⟨x.1, (u.sourceOf x.1).1, (u.sourceOf x.1).2⟩)
      ∧ (∀ e ∈ u.aspects, e.cause ≠ .recovered ∧ e.cause ≠ .failed)
      ∧ (∀ g, u.legendAt g = if s.hasMessage g then s.legendAt g else 0)
      ∧ { u with operating := s.operating, clock := s.clock, planTimer := s.planTimer, warnings := s.warnings,
                 closures := s.closures, traffic := s.traffic, insts := s.insts, plan := s.plan, panels := s.panels,
                 lines := s.lines, aspects := s.aspects, legends := s.legends, arrowMap := s.arrowMap,
                 crossMap := s.crossMap } = s

/-- R13, R61: STOP in STOPPED changes nothing; with a closure in the table it is refused; otherwise it ends every warning with
its report, deletes the working records, the traffic and the plan, and empties the queues; everything else stands. The reports
stand in rising gantry order, as the table does where its invariant holds. That a request command leaves the receiver in HUNT
is the model's choice (notes/assumptions/6.md). -/
def Obligations.StopEndsTheRun : Prop :=
  ∀ (s : State) (tag : Byte), s.receptive →
    (s.operating = .stopped → OnlyAnswers (.stop tag []) s 0x95 tag [0x00])
    ∧ (s.operating = .running → s.closures ≠ [] → OnlyAnswers (.stop tag []) s 0x95 tag [0x0B])
    ∧ (s.operating = .running → s.closures = [] → (s.warnings.map (·.gantry)).Pairwise (· < ·) →
        Acts (.stop tag []) s 0x95 tag [0x00]
          { s with
            operating := .stopped
            traffic := []
            insts := []
            warnings := []
            plan := []
            lines := ⟨{ s.lines.a with queue := [] }, { s.lines.b with queue := [] }, { s.lines.c with queue := [] },
              { s.lines.d with queue := [] }⟩ }
          (s.warnings.map (fun w => .warningState s.clock (.ended .stopped) w)))

/-! ## Detector records (R20 to R38) -/

/-- R20, R22: DETECTOR in STOPPED is WRONG_STATE; a gantry not below G is BAD_VALUE 1, a count that is not N is BAD_VALUE 3,
and flags of lane l that name anything outside the four are BAD_VALUE 4l+3; the last applied sequence repeated is STALE_SEQ;
then nothing changes. That a request command leaves the receiver in HUNT is the model's choice (notes/assumptions/6.md). -/
def Obligations.DetectorRefusalsChangeNothing : Prop :=
  ∀ (s : State) (tag g q : Byte) (lanes : List LaneEntry), s.receptive → lanes.length ≤ 47 →
    let i := Instr.detector tag ([g, q, byteOf lanes.length] ++ lanes.flatMap laneBytes)
    (s.operating = .stopped → OnlyAnswers i s 0xA0 tag [0x03])
    ∧ (s.operating = .running → s.params.gantryCount ≤ g.toNat → OnlyAnswers i s 0xA0 tag [0x04, 1])
    ∧ (s.operating = .running → g.toNat < s.params.gantryCount → lanes.length ≠ s.params.laneCount →
        OnlyAnswers i s 0xA0 tag [0x04, 3])
    ∧ (s.operating = .running → g.toNat < s.params.gantryCount → lanes.length = s.params.laneCount →
        (s.trafficAt g.toNat).lastSeq = some q.toNat → OnlyAnswers i s 0xA0 tag [0x09])
    ∧ ∀ entries : Bytes, entries.length = 5 * s.params.laneCount → s.params.laneCount ≤ 47 → s.operating = .running →
        g.toNat < s.params.gantryCount →
        RefusesFirst (.detector tag ([g, q, byteOf s.params.laneCount] ++ entries)) s 0xA0 tag
          ((List.range s.params.laneCount).map (fun l => (4 * l + 7, decide ((entries.getD (5 * l + 4) 0).toNat < 16))))

/-- R23, R28, R29, R38: a record that is taken replaces the traffic record of its gantry: its lanes updated from their
entries, the aggregates of the lanes present, the age 0, the sequence, and the band, which the reply tells. No other gantry's
record changes, and nothing is written outside the blocks R38 names. R45, R54 to R59, R150: where the tables are legal, the
gantry is evaluated: its working records, the firings and their reports, the warning there and its hold, and the capture a
firing freezes. R38, R63: where neither the band nor a requested cap changed, there is no run and no aspect is recomputed;
where one did, they are, and the changed aspects are handed on (R111). The model's: what the start report carries
(notes/assumptions/11.md); several last reports stand in rising id (notes/assumptions/8.md), and a release is tested once, at
the event's end (notes/assumptions/9.md). That a request command leaves the receiver in HUNT is the model's choice
(notes/assumptions/6.md). -/
def Obligations.DetectorAppliesTheRecord : Prop :=
  ∀ (s : State) (tag g q : Byte) (lanes : List LaneEntry), s.receptive → s.operating = .running → TrafficLegal s →
    g.toNat < s.params.gantryCount → lanes.length = s.params.laneCount → lanes.length ≤ 5 →
    (∀ e ∈ lanes, e.count ≤ 255 ∧ e.occ ≤ 65535 ∧ e.speed ≤ 255) →
    (s.trafficAt g.toNat).lastSeq ≠ some q.toNat →
      ∃ u rs, Acts (.detector tag ([g, q, byteOf lanes.length] ++ lanes.flatMap laneBytes)) s 0xA0 tag
          [0x00, byteOf (u.trafficAt g.toNat).band] u rs
        ∧ (let r := u.trafficAt g.toNat
           let present := r.lanes.filter (·.present)
           r.lanes = List.zipWith (updateLane s.params) (s.trafficAt g.toNat).lanes lanes
           ∧ r.absent = false ∧ r.age = 0 ∧ r.lastSeq = some q.toNat
           ∧ r.aggSpeed = (present.filterMap (fun x => x.speed.map (· / 16))).min?
           ∧ r.aggOcc = (present.filterMap (fun x => x.occ.map (· / 16))).max?
           ∧ r.aggCount = (if present = [] then none else some ((present.map (fun x => x.count.getD 0)).sum))
           ∧ r.aggStatus = (if present = [] then none else
               some ((present.map (fun x => x.flags.getD 0)).foldr (fun f acc => f ||| acc) 0))
           ∧ r.band = reclass (s.bands.getD []) (s.trafficAt g.toNat).band r.aggOcc r.aggSpeed)
        ∧ (∀ h, h ≠ g.toNat → u.traffic[h]? = s.traffic[h]?)
        ∧ (WarningsLegal s → InstsLegal s →
            let t := { s with traffic := u.traffic }
            u.insts = s.insts.map (fun i => if i.gantry = g.toNat then
                (match evaluatedAt t g.toNat i.program with
                 | some e => e.inst
                 | none => i) else i)
            ∧ u.warnings = s.warnings.filter (fun w => decide (w.gantry < g.toNat)) ++ (warningLeft t g.toNat).toList
                ++ s.warnings.filter (fun w => decide (g.toNat < w.gantry))
            ∧ u.history = { s.history with frozen :=
                (match s.history.frozen, firedWith t g.toNat (·.freeze) with
                 | none, p :: _ => some ⟨s.clock, .trigger p g.toNat⟩
                 | held, _ => held) }
            ∧ ∃ setOff, rs = evaluationReports t g.toNat ++ setOff
              ∧ (let moved := (u.trafficAt g.toNat).band ≠ (s.trafficAt g.toNat).band
                   ∨ u.warnings.map (fun w => (w.gantry, w.requestedCap)) ≠ s.warnings.map (fun w => (w.gantry, w.requestedCap))
                 (moved → SourcesTaken { t with warnings := u.warnings } u True setOff)
                 ∧ (¬ moved → NothingSetOff s u setOff)))
        ∧ ((u.trafficAt g.toNat).band = (s.trafficAt g.toNat).band →
            u.warnings.map (fun w => (w.gantry, w.requestedCap)) = s.warnings.map (fun w => (w.gantry, w.requestedCap)) →
            u.plan = s.plan ∧ u.aspects = s.aspects ∧ u.lines = s.lines)
        ∧ { u with traffic := s.traffic, insts := s.insts, warnings := s.warnings, history := s.history, plan := s.plan,
                   aspects := s.aspects, lines := s.lines, closures := s.closures, link := s.link } = s

/-- R24 to R27: FAULT leaves the smoothed values and takes the lane out; a present lane's occupancy moves always and its speed
unless it is 255 or the count is 0; a value that is none is seeded. -/
def Obligations.LaneUpdateFollowsTheFlags : Prop :=
  ∀ (p : Params) (old : LaneTraffic) (e : LaneEntry),
    let new := updateLane p old e
    let occ := min e.occ 1000
    (e.flags.getLsbD 0 = true → new = ⟨false, old.speed, old.occ, none, none⟩)
    ∧ (e.flags.getLsbD 0 = false →
        new.present = true ∧ new.count = some e.count ∧ new.flags = some e.flags
        ∧ (old.occ = none → new.occ = some (16 * occ))
        ∧ (∀ v, old.occ = some v → new.occ = some (smooth p.kOcc (some v) occ))
        ∧ (e.speed = 255 ∨ e.count = 0 → new.speed = old.speed)
        ∧ (e.speed ≠ 255 → e.count ≠ 0 →
            (old.speed = none → new.speed = some (16 * min e.speed 250))
            ∧ ∀ v, old.speed = some v → new.speed = some (smooth p.kSpeed (some v) (min e.speed 250))))

/-- R27. -/
def Obligations.SmoothingStaysBetweenTheOldAndTheReading : Prop :=
  ∀ k v x : Nat, 1 ≤ k → k ≤ 16 →
    ((smooth k (some v) x : Nat) : Int) = (v : Int) + Int.tdiv ((k : Int) * (16 * (x : Int) - (v : Int))) 16
    ∧ min v (16 * x) ≤ smooth k (some v) x ∧ smooth k (some v) x ≤ max v (16 * x)
    ∧ (x ≤ 250 → v ≤ 4000 → smooth k (some v) x ≤ 4000) ∧ (x ≤ 1000 → v ≤ 16000 → smooth k (some v) x ≤ 16000)
    ∧ (k = 16 → smooth k (some v) x = 16 * x)
    ∧ (smooth k (some v) x = v → v ≤ 16 * x + 15 ∧ 16 * x ≤ v + 15 ∧ (v / 16 = x ∨ v / 16 + 1 = x))

/-- R34, R35, R36: the highest band entered wins at once; a fall is by exactly one band and tests the current band's own exit;
without an occupancy the band is held. -/
def Obligations.BandRisesAtOnceAndFallsByOne : Prop :=
  ∀ (bands : List Band) (band : Nat) (o : Nat) (speed : Option Nat),
    let entered := fun (n : Nat) => ∃ b, 1 ≤ n ∧ bands[n - 1]? = some b ∧ (b.occOn ≤ o ∨ ∃ v, speed = some v ∧ v ≤ b.spdOn)
    let exited := ∃ b, 1 ≤ band ∧ bands[band - 1]? = some b ∧ o < b.occOff ∧ ∀ v, speed = some v → b.spdOff < v
    (∀ n, entered n → band < n → (∀ m, entered m → m ≤ n) → reclass bands band (some o) speed = n)
    ∧ ((∀ n, entered n → n ≤ band) → exited → reclass bands band (some o) speed = band - 1)
    ∧ ((∀ n, entered n → n ≤ band) → ¬ exited → reclass bands band (some o) speed = band)
    ∧ reclass bands band none speed = band

/-! ## Triggers and warnings (R41 to R63) -/

/-- R41: TRIGGER_SET writes every field of a disabled program, as the body spells it, and leaves it set and disabled; a number
above 7 is refused with BAD_VALUE 1, then an enabled program with WRONG_STATE, and then any body with the first of its fields
2 to 18 that is out of its range. That a request command leaves the receiver in HUNT is the model's choice
(notes/assumptions/6.md). -/
def Obligations.TriggerSetWritesTheProgram : Prop :=
  ∀ (s : State) (tag n : Byte), s.receptive →
    (∀ (x y z : Byte) (p : Program), ProgramLegal p →
      n.toNat ≤ 7 → (s.slot n.toNat).enabled = false →
        Acts (.triggerSet tag (programBody n p x y z)) s 0xB0 tag [0x00]
          { s with programs := s.programs.set n.toNat ⟨some p, false⟩ } [])
    ∧ ∀ fields : Bytes, fields.length = 19 →
        let i := Instr.triggerSet tag (n :: fields)
        let at_ := fun (k : Nat) => (fields.getD k 0).toNat
        let upTo := fun (k bound : Nat) => decide (at_ k ≤ bound)
        -- the two-byte value at a place, in two's complement, lies in low..high
        let value := fun (k : Nat) (low high : Int) =>
          let v : Int := if at_ k < 128 then at_ k * 256 + at_ (k + 1) else (at_ k * 256 + at_ (k + 1) : Int) - 65536
          decide (low ≤ v ∧ v ≤ high)
        -- a comparator at a place, its first field numbered f
        let comparator := fun (k f : Nat) =>
          [(f, upTo k 5), (f + 1, upTo (k + 1) 3), (f + 2, if at_ k = 5 then value (k + 2) 0 15 else value (k + 2) (-255) 1000),
           (f + 3, upTo (k + 4) 15)]
        let warn := (fields.getD 16 0).getLsbD 0
        (7 < n.toNat → OnlyAnswers i s 0xB0 tag [0x04, 1])
        ∧ (n.toNat ≤ 7 → (s.slot n.toNat).enabled = true → OnlyAnswers i s 0xB0 tag [0x03])
        ∧ (n.toNat ≤ 7 → (s.slot n.toNat).enabled = false →
            RefusesFirst i s 0xB0 tag
              ([(2, upTo 0 31), (3, decide (at_ 0 ≤ at_ 1 ∧ at_ 1 ≤ 31)), (4, upTo 2 5)] ++ comparator 3 5 ++ comparator 8 9
                ++ [(13, upTo 13 3), (14, decide (at_ 13 ≠ 3 ∨ 1 ≤ at_ 14 ∧ at_ 14 ≤ 15)), (15, upTo 15 31),
                    (16, upTo 16 15 && ((fields.getD 16 0).getLsbD 0 || (fields.getD 16 0).getLsbD 1
                      || (fields.getD 16 0).getLsbD 2)),
                    (17, !warn || decide (1 ≤ at_ 17)), (18, !warn || decide (1 ≤ at_ 18 ∧ at_ 18 ≤ 60))]))

/-- R42, R44: TRIGGER_ENABLE makes a set program enabled and, in RUNNING, creates its working records at every gantry of its
span below G, IDLE, with the counter at the preset and the window 0; the reply counts them. That the count is 0 for a program
already enabled is DEDUCED (notes/assumptions/19.md). That a request command leaves the receiver in HUNT is the model's choice
(notes/assumptions/6.md). -/
def Obligations.TriggerEnableCreatesWorkingRecords : Prop :=
  ∀ (s : State) (tag n : Byte), s.receptive →
    let i := Instr.triggerEnable tag [n]
    (7 < n.toNat → OnlyAnswers i s 0xB1 tag [0x04, 1])
    ∧ (n.toNat ≤ 7 → (s.slot n.toNat).fields = none → OnlyAnswers i s 0xB1 tag [0x03])
    ∧ ∀ p, n.toNat ≤ 7 → (s.slot n.toNat).fields = some p →
        let enabled := { s with programs := s.programs.set n.toNat ⟨some p, true⟩ }
        ((s.slot n.toNat).enabled = true → OnlyAnswers i s 0xB1 tag [0x00, 0])
        ∧ ((s.slot n.toNat).enabled = false → s.operating = .stopped → Acts i s 0xB1 tag [0x00, 0] enabled [])
        ∧ ((s.slot n.toNat).enabled = false → s.operating = .running →
            ∃ made : List TrigInst,
              Acts i s 0xB1 tag [0x00, byteOf made.length] { enabled with insts := s.insts ++ made } []
              ∧ made.map (·.gantry) = (List.range s.params.gantryCount).filter (fun g => decide (p.first ≤ g ∧ g ≤ p.last))
              ∧ ∀ m ∈ made, m.program = n.toNat ∧ m.counter = p.preset ∧ m.window = 0 ∧ m.fired = false)

/-- R43, R61, R63: TRIGGER_DISABLE deletes the program's working records, takes it from every owner set, and ends, with their
reports, the warnings it alone owned, whose number the reply tells; a warning with other owners takes the smallest cap of
those that remain, its hold is lowered to their largest if it stood above it and kept otherwise, and its start time stands.
While RUNNING, where a warning ended or a requested cap changed, one event run follows and the aspects are recomputed;
otherwise nothing is set off. The owner set the ENDED reports carry, empty, and the count 0 for a program not enabled are the
model's (notes/assumptions/13.md, 19.md). The model's too: several ENDED reports stand in rising gantry order and several last
reports stand in rising id (notes/assumptions/8.md), and a release is tested once, at the event's end
(notes/assumptions/9.md). That a request command leaves the receiver in HUNT is the model's choice (notes/assumptions/6.md).
-/
def Obligations.TriggerDisableLeavesTheWarnings : Prop :=
  ∀ (s : State) (tag n : Byte), s.receptive → WarningsLegal s →
    let i := Instr.triggerDisable tag [n]
    (7 < n.toNat → OnlyAnswers i s 0xB2 tag [0x04, 1])
    ∧ (n.toNat ≤ 7 → (s.slot n.toNat).enabled = false → OnlyAnswers i s 0xB2 tag [0x00, 0])
    ∧ (n.toNat ≤ 7 → (s.slot n.toNat).enabled = true →
        ∃ u rs, Acts i s 0xB2 tag
            [0x00, byteOf (s.warnings.filter (fun w => w.owners.all (fun q => q == n.toNat))).length] u rs
          ∧ (u.slot n.toNat) = ⟨(s.slot n.toNat).fields, false⟩
          ∧ (∀ q, q ≠ n.toNat → u.slot q = s.slot q)
          ∧ u.insts = s.insts.filter (fun x => x.program != n.toNat)
          ∧ u.warnings.map (fun w => (w.gantry, w.owners)) =
              ((s.warnings.map (fun w => (w.gantry, w.owners.filter (fun q => q != n.toNat)))).filter
                (fun x => !x.2.isEmpty))
          ∧ (∀ w ∈ s.warnings, n.toNat ∉ w.owners → w ∈ u.warnings)
          ∧ (∀ v ∈ s.warnings, n.toNat ∈ v.owners → ∀ w ∈ u.warnings, w.gantry = v.gantry →
              w.start = v.start ∧ some w.requestedCap = (w.owners.filterMap u.ownerCap).min?
              ∧ w.cap = roundInto s.displayable w.requestedCap
              ∧ ∃ largest, (w.owners.filterMap u.ownerHold).max? = some largest ∧ w.hold = min v.hold largest)
          ∧ (∃ setOff,
              rs = (s.warnings.filter (fun w => w.owners.all (fun q => q == n.toNat))).map
                (fun w => .warningState s.clock (.ended .ownersDisabled) { w with owners := [] }) ++ setOff
              ∧ (let moved := u.warnings.map (fun w => (w.gantry, w.requestedCap))
                   ≠ s.warnings.map (fun w => (w.gantry, w.requestedCap))
                 let w := { s with programs := u.programs, insts := u.insts, warnings := u.warnings }
                 (s.operating = .running → moved → SourcesTaken w u True setOff)
                 ∧ (s.operating = .stopped ∨ ¬ moved → NothingSetOff s u setOff)))
          ∧ { u with programs := s.programs, insts := s.insts, warnings := s.warnings, plan := s.plan,
                     aspects := s.aspects, lines := s.lines, closures := s.closures, link := s.link } = s)

/-- R53: every FIRED working record of the program becomes IDLE with the counter at the preset and the window 0; the others
are left as they stand; no warning is placed or ended. That a request command leaves the receiver in HUNT is the model's
choice (notes/assumptions/6.md). -/
def Obligations.TriggerRearmReturnsFiredToIdle : Prop :=
  ∀ (s : State) (tag n : Byte), s.receptive →
    (7 < n.toNat → OnlyAnswers (.triggerRearm tag [n]) s 0xB3 tag [0x04, 1])
    ∧ (n.toNat ≤ 7 → ∀ p, (s.slot n.toNat).fields = some p →
        Acts (.triggerRearm tag [n]) s 0xB3 tag
          [0x00, byteOf (s.insts.filter (fun i => i.program == n.toNat && i.fired)).length]
          { s with insts := s.insts.map (fun i =>
              if i.program = n.toNat ∧ i.fired = true then ⟨i.program, i.gantry, p.preset, 0, false⟩ else i) } [])
    ∧ (n.toNat ≤ 7 → (∀ i ∈ s.insts, i.program = n.toNat → i.fired = false) →
        OnlyAnswers (.triggerRearm tag [n]) s 0xB3 tag [0x00, 0])

/-- R60, R63: WARNING_CLEAR ends the warning at its gantry, first reporting it with the reason CLEARED; its owners' working
records stand; while RUNNING one event run and the aspects follow, handed on to the lines (R111); with none there nothing
changes; an index not below G is BAD_VALUE 1. The model's: several last reports stand in rising id (notes/assumptions/8.md),
and a release is tested once, at the event's end (notes/assumptions/9.md). That a request command leaves the receiver in HUNT
is the model's choice (notes/assumptions/6.md). -/
def Obligations.WarningClearEndsTheWarning : Prop :=
  ∀ (s : State) (tag g : Byte), s.receptive →
    let i := Instr.warningClear tag [g]
    (s.params.gantryCount ≤ g.toNat → OnlyAnswers i s 0xB4 tag [0x04, 1])
    ∧ (g.toNat < s.params.gantryCount → (∀ w ∈ s.warnings, w.gantry ≠ g.toNat) → OnlyAnswers i s 0xB4 tag [0x00, 0])
    ∧ (g.toNat < s.params.gantryCount → ∀ w ∈ s.warnings, w.gantry = g.toNat → WarningsLegal s →
        ∃ u rs, Acts i s 0xB4 tag [0x00, 1] u (.warningState s.clock (.ended .cleared) w :: rs)
          ∧ u.warnings = s.warnings.filter (fun v => v.gantry != g.toNat)
          ∧ (s.operating = .running → SourcesTaken { s with warnings := u.warnings } u True rs)
          ∧ (s.operating = .stopped → NothingSetOff s u rs)
          ∧ { u with warnings := s.warnings, plan := s.plan, aspects := s.aspects, lines := s.lines,
                     closures := s.closures, link := s.link } = s)

/-- R45, R55: an evaluation reads the two fields, forms the two results and q, and applies it, keeping what a firing would
report. R30, R46, R47: the field values, by source; a lane that is not present has no speed or occupancy, and the reference
gantry of DSPEED is the nearest downstream that is not absent and has an aggregate speed. R48: a comparator's result. R49,
R50: the qualifying outcome and the window after an evaluation, row by row of the two tables. -/
def Obligations.QualifyingOutcomeFollowsTheTables : Prop :=
  (∀ (w window : Nat) (a b : Option Bool),
    qualify .a w window a b = (a, 0)
    ∧ ((qualify .aOrB w window a b).1 = some true ↔ a = some true ∨ b = some true)
    ∧ ((qualify .aOrB w window a b).1 = some false ↔ a = some false ∧ b = some false)
    ∧ ((qualify .aAndB w window a b).1 = some true ↔ a = some true ∧ b = some true)
    ∧ ((qualify .aAndB w window a b).1 = some false ↔ a = some false ∨ b = some false)
    ∧ (qualify .aOrB w window a b).2 = 0 ∧ (qualify .aAndB w window a b).2 = 0
    ∧ (window = 0 → qualify .aThenB w window a b = (some false, if a = some true then w else 0))
    ∧ (0 < window →
        (b = some true → qualify .aThenB w window a b = (some true, window))
        ∧ (b = some false → qualify .aThenB w window a b = (some false, window - 1))
        ∧ (b = none → qualify .aThenB w window a b = (none, window - 1))))
  ∧ (∀ c : Comparator,
      let holds := fun (x y : Int) => match c.relation with
        | .le => decide (x ≤ y)
        | .ge => decide (y ≤ x)
        | .eq => decide (x = y)
        | .ne => decide (x ≠ y)
      compare c none = none
      ∧ (c.field ≠ .status → ∀ v, compare c (some v) = some (holds v c.value))
      ∧ (c.field = .status → ∀ f held : LaneFlags, c.value = held.toNat →
          compare c (some f.toNat) = some (holds (f &&& c.mask).toNat (held &&& c.mask).toNat)))
  ∧ (∀ (s : State) (g : Nat) (source : Source),
      let r := s.trafficAt g
      s.fieldValue source g .band = some (r.band : Int)
      ∧ s.fieldValue .aggregate g .speed = r.aggSpeed.map Int.ofNat
      ∧ s.fieldValue .aggregate g .occ = r.aggOcc.map Int.ofNat
      ∧ s.fieldValue .aggregate g .count = r.aggCount.map Int.ofNat
      ∧ s.fieldValue .aggregate g .status = r.aggStatus.map (fun f => Int.ofNat f.toNat)
      ∧ (∀ l x, 1 ≤ l → r.lanes[l - 1]? = some x →
          s.fieldValue (.lane l) g .speed = (if x.present = true then x.speed.map (fun v => Int.ofNat (v / 16)) else none)
          ∧ s.fieldValue (.lane l) g .occ = (if x.present = true then x.occ.map (fun v => Int.ofNat (v / 16)) else none)
          ∧ s.fieldValue (.lane l) g .count = x.count.map Int.ofNat
          ∧ s.fieldValue (.lane l) g .status = x.flags.map (fun f => Int.ofNat f.toNat))
      ∧ (∀ l f, 1 ≤ l → r.lanes[l - 1]? = none → f ≠ .band → f ≠ .dspeed → s.fieldValue (.lane l) g f = none)
      ∧ (∀ h r' v w, g < h → s.traffic[h]? = some r' → r'.absent = false → r'.aggSpeed = some w →
          (∀ m, g < m → m < h → (s.trafficAt m).absent = true ∨ (s.trafficAt m).aggSpeed = none) →
          r.aggSpeed = some v → s.fieldValue source g .dspeed = some ((v : Int) - (w : Int)))
      ∧ ((r.aggSpeed = none ∨ ∀ h r', g < h → s.traffic[h]? = some r' → r'.absent = true ∨ r'.aggSpeed = none) →
          s.fieldValue source g .dspeed = none))
  ∧ ∀ (s : State) (p : Program) (i : TrigInst),
      let a := s.fieldValue p.source i.gantry p.compA.field
      let b := s.fieldValue p.source i.gantry p.compB.field
      let q := qualify p.mode p.window i.window (compare p.compA a) (compare p.compB b)
      let read := fun (v : Option Int) => match v with
        | some x => ReadVal.known x
        | none => ReadVal.unknown
      s.evaluate p i = applyQ p i q.1 q.2 ⟨i.program,
        if p.mode = .aThenB ∧ i.window ≠ 0 then .notRead else read a, if p.mode = .a then .notRead else read b⟩

/-- R51, R52: what an evaluation's q does to a working record, and when it fires; a FIRED record counts and fires no more. -/
def Obligations.CountingAndFiring : Prop :=
  ∀ (p : Program) (i : TrigInst) (window : Nat) (f : Firing),
    (i.fired = true → ∀ q, applyQ p i q window f = ⟨{ i with window := window }, q, none⟩)
    ∧ (i.fired = false →
        (0 < i.counter → applyQ p i (some true) window f =
          ⟨{ i with counter := i.counter - 1, window := window }, some true, none⟩)
        ∧ (i.counter = 0 → p.actions.rearm = true → applyQ p i (some true) window f =
          ⟨⟨i.program, i.gantry, p.preset, 0, false⟩, some true, some f⟩)
        ∧ (i.counter = 0 → p.actions.rearm = false → applyQ p i (some true) window f =
          ⟨⟨i.program, i.gantry, 0, 0, true⟩, some true, some f⟩)
        ∧ applyQ p i (some false) window f = ⟨{ i with counter := p.preset, window := window }, some false, none⟩
        ∧ applyQ p i none window f = ⟨{ i with window := window }, none, none⟩)

/-- R54, R56, R57: what WARN does: a warning that stands takes the program among its owners, the smallest cap and the largest
hold; with none standing and room one is made; at 16 nothing is placed. Where the table is legal, no other gantry's warning is
touched. -/
def Obligations.WarnPlacesMergesOrFails : Prop :=
  ∀ (s : State) (p g : Nat) (prog : Program), WarningsLegal s → s.enabledProgram p = some prog →
    let r := s.placeWarning p g
    (∀ w ∈ s.warnings, w.gantry = g →
      r.2 = .merged ∧ ∃ w' ∈ r.1.warnings, w'.gantry = g ∧ (∀ q, q ∈ w'.owners ↔ q = p ∨ q ∈ w.owners)
        ∧ some w'.requestedCap = (w'.owners.filterMap s.ownerCap).min?
        ∧ some w'.hold = (w'.owners.filterMap s.ownerHold).max?
        ∧ w'.cap = roundInto s.displayable w'.requestedCap ∧ w'.start = w.start)
    ∧ ((∀ w ∈ s.warnings, w.gantry ≠ g) → s.warnings.length < 16 →
        r.2 = .placed ∧ ⟨g, [p], prog.warnCap, roundInto s.displayable prog.warnCap, prog.warnHold, s.clock⟩ ∈ r.1.warnings
        ∧ r.1.warnings.length = s.warnings.length + 1)
    ∧ ((∀ w ∈ s.warnings, w.gantry ≠ g) → 16 ≤ s.warnings.length → r = (s, .notPlaced))
    ∧ (∀ w, w.gantry ≠ g → (w ∈ r.1.warnings ↔ w ∈ s.warnings))
    ∧ { r.1 with warnings := s.warnings } = s

/-! ## The speed plan (R6, R65 to R83) -/

/-- R6, R66, R71: OPERATOR_CAP stores its value as given; in RUNNING a different value makes one event run, in which it is a
demand at every gantry unless it is 0, and the aspects follow, handed on to the lines (R110, R111); a repeated value changes
nothing, and in STOPPED it is stored alone. The model's: several last reports stand in rising id (notes/assumptions/8.md), and
a release is tested once, at the event's end (notes/assumptions/9.md). That a request command leaves the receiver in HUNT is
the model's choice (notes/assumptions/6.md). -/
def Obligations.OperatorCapIsStoredAndBinds : Prop :=
  ∀ (s : State) (tag v : Byte), s.receptive →
    let i := Instr.operatorCap tag [v]
    let stored := { s with operatorCap := v.toNat }
    (v.toNat = s.operatorCap → OnlyAnswers i s 0xD0 tag [0x00])
    ∧ (v.toNat ≠ s.operatorCap → s.operating = .stopped → Acts i s 0xD0 tag [0x00] stored [])
    ∧ (v.toNat ≠ s.operatorCap → s.operating = .running →
        ∃ u rs, Acts i s 0xD0 tag [0x00] u rs ∧ u.operatorCap = v.toNat ∧ u.plan = stored.planRun false none
          ∧ SourcesTaken stored u True rs
          ∧ (v ≠ 0 → ∀ g, g < s.params.gantryCount → (u.planAt g).demand ≤ v.toNat)
          ∧ { u with operatorCap := s.operatorCap, plan := s.plan, aspects := s.aspects, lines := s.lines,
                     closures := s.closures, link := s.link } = s)

/-- R9, R31, R32, R65: at an expiry every gantry ages, one at stale_limit becomes absent and keeps its band and sequence, and
one timed run is made, which finds the demands it would have found before the ageing. The aspects are recomputed and handed on
(R110, R111). The reports are those of the releases that settle (R104, R105). The model's: several last reports stand in
rising id (notes/assumptions/8.md), and a release is tested once, at the event's end (notes/assumptions/9.md). The model's
choices: the command acts once the timer has reached P and takes P from it (notes/assumptions/23.md), and before that, and in
STOPPED, nothing happens (notes/assumptions/2.md). -/
def Obligations.PlanPeriodAgesAndRuns : Prop :=
  ∀ s : State, (s.operating = .stopped ∨ s.planTimer < s.params.planPeriod → exec .planPeriodExpiry s = .next s)
    ∧ (s.operating = .running → s.params.planPeriod ≤ s.planTimer →
    ∃ u rs, Happens .planPeriodExpiry s u rs
      ∧ u.planTimer = s.planTimer - s.params.planPeriod
      ∧ u.plan = s.planRun true none
      ∧ u.traffic.length = s.traffic.length
      ∧ (∀ (g : Nat) (r : TrafficRec), s.traffic[g]? = some r →
          ∃ r' : TrafficRec, u.traffic[g]? = some r' ∧ r'.age = min (r.age + 1) 255
          ∧ r'.band = r.band ∧ r'.lastSeq = r.lastSeq
          ∧ (r'.age ≠ s.params.staleLimit → r' = { r with age := r'.age })
          ∧ (r'.age = s.params.staleLimit → r'.absent = true ∧ r'.aggSpeed = none ∧ r'.aggOcc = none ∧ r'.aggStatus = none
              ∧ r'.aggCount = none ∧ r'.lanes.length = r.lanes.length
              ∧ ∀ x ∈ r'.lanes, x = ⟨false, none, none, none, none⟩))
      ∧ u.aspects = s.aspects.map (State.newEntry { s with traffic := u.traffic, plan := u.plan })
      ∧ HandedOn s u ∧ Endings s u rs
      ∧ (∀ c, c ∈ u.closures → c ∈ s.closures)
      ∧ (∀ c ∈ s.closures, c ∉ u.closures → c.state = .releasing ∧ .closureState s.clock .state c.state none c ∈ rs)
      ∧ (∀ r ∈ rs, ∃ c ∈ s.closures, r = .closureState s.clock .state c.state none c)
      ∧ { u with planTimer := s.planTimer, traffic := s.traffic, plan := s.plan, aspects := s.aspects, lines := s.lines,
                 closures := s.closures, link := s.link } = s)

/-- R75: Stage 4, row by row. R74, R77, R80: in every run the target is the rounded demand, and the shown limit the candidate,
each lowered to the largest member of the set not above the nearest speed-signing gantry downstream plus max_drop, where there
is one; the rise-wait is the candidate's, or 0 where the shown limit changed. R66, R75, R77: an event run raises no shown limit,
and a timed run raises one by at most one member of the set. -/
def Obligations.RunsRaiseOneStepAndOnlyOnTime : Prop :=
  (∀ (set : List Nat) (holdUp target shown wait : Nat) (timed : Bool),
    (target < shown → candidate set holdUp timed target shown wait = (target, 0))
    ∧ (target = shown → candidate set holdUp timed target shown wait = (shown, 0))
    ∧ (shown < target →
        candidate set holdUp false target shown wait = (shown, wait)
        ∧ (wait + 1 < holdUp → candidate set holdUp true target shown wait = (shown, wait + 1))
        ∧ (holdUp ≤ wait + 1 → ∃ next, candidate set holdUp true target shown wait = (next, holdUp)
            ∧ (target ∈ set → next ∈ set ∧ shown < next ∧ next ≤ target ∧ ∀ m ∈ set, shown < m → next ≤ m))))
  ∧ ∀ (s : State) (initial : Option Nat) (timed : Bool) (g : Nat) (r : PlanRec),
    (s.planRun timed initial)[g]? = some r →
      (let own := candidate s.displayable s.params.holdUp timed r.target (s.planAt g).shown (s.planAt g).riseWait
       -- b is the largest member of the set not above v plus max_drop
       let bound := fun (v b : Nat) => b ∈ s.displayable ∧ b ≤ v + s.params.maxDrop
         ∧ ∀ m ∈ s.displayable, m ≤ v + s.params.maxDrop → m ≤ b
       ((∀ h, ¬ nextSigning s g h) → r.target = r.rounded ∧ r.shown = own.1)
       ∧ (∀ h below, nextSigning s g h → (s.planRun timed initial)[h]? = some below →
           (∀ b, bound below.target b → r.target = min r.rounded b)
           ∧ (∀ b, bound below.shown b → r.shown = min own.1 b))
       ∧ r.riseWait = (if r.shown = (s.planAt g).shown then own.2 else 0))
      ∧ (timed = false → r.shown ≤ (s.planAt g).shown)
      ∧ (∀ m ∈ s.displayable, (s.planAt g).shown < m → r.shown ≤ m)
      ∧ (r.shown ≠ (s.planAt g).shown → r.riseWait = 0)
      ∧ (r.shown = (s.planAt g).shown → timed = false → r.riseWait = (s.planAt g).riseWait ∨ r.riseWait = 0)

/-- R70, R71: the demand is the lowest of the values asked for at the gantry: it lies above none of them, and it is one of them.
R72: the binding source is the first that asks for it, in the order operator, closures by id, warning, congestion, initial
limit, corridor maximum; the cause is OPERATOR where the operator binds and the shown limit is the rounded demand. R73: the
rounded demand is the largest member not above the demand, and the floor-clamp mark stands exactly where there is none. The
premises say that the band is one of the table and that the closures stand in rising id, as their invariants do. -/
def Obligations.DemandIsTheLowestAndIsRounded : Prop :=
  ∀ (s : State) (initial : Option Nat) (timed : Bool) (g : Nat) (r : PlanRec),
    (s.planRun timed initial)[g]? = some r →
      let operator := fun (v : Nat) => s.operatorCap ≠ 0 ∧ s.operatorCap = v
      let closure := fun (c : Closure) (v : Nat) =>
        c ∈ s.closures ∧ c.state ≠ .releasing ∧ (g ∈ c.taper ∨ c.first ≤ g ∧ g ≤ c.last) ∧ c.requestedCap = v
      let warning := fun (v : Nat) => ∃ w, warningAt s.warnings g = some w ∧ w.requestedCap = v
      let congestion := fun (v : Nat) => ∃ b, 0 < (s.trafficAt g).band
        ∧ (s.bands.getD [])[(s.trafficAt g).band - 1]? = some b ∧ b.limit = v
      let asked := fun (v : Nat) => operator v ∨ (∃ c, closure c v) ∨ warning v ∨ congestion v ∨ initial = some v
        ∨ v = s.corridorMax
      asked r.demand ∧ (∀ v, asked v → r.demand ≤ v)
      ∧ (r.binding = .operator ↔ operator r.demand)
      ∧ ((s.trafficAt g).band ≤ (s.bands.getD []).length → ¬ operator r.demand →
          ((s.closures.map (·.id)).Pairwise (· < ·) → ∀ c, closure c r.demand → (∀ d, closure d r.demand → c.id ≤ d.id) →
            r.binding = .closure c.id)
          ∧ ((∀ c, ¬ closure c r.demand) →
              (warning r.demand → r.binding = .warning)
              ∧ (¬ warning r.demand → congestion r.demand → r.binding = .congestion)
              ∧ (¬ warning r.demand → ¬ congestion r.demand → initial = some r.demand → r.binding = .initial)
              ∧ (¬ warning r.demand → ¬ congestion r.demand → initial ≠ some r.demand → r.binding = .maximum)))
      ∧ r.cause = (if r.binding = .operator ∧ r.shown = r.rounded then .operator else .plan)
      ∧ (∀ m ∈ s.displayable, m ≤ r.demand →
          r.clamped = false ∧ r.rounded ∈ s.displayable ∧ m ≤ r.rounded ∧ r.rounded ≤ r.demand)
      ∧ ((∀ m ∈ s.displayable, r.demand < m) → r.clamped = true ∧ r.rounded = s.displayable.headD 0)

/-! ## Closures (R86 to R108) -/

/-- R88, R89, R106: CLOSURE_SET is refused for the first reason of its list that applies, with nothing changed; otherwise the
record is made, REQUESTED, with the taper list of R89, and its CREATED report is placed first; the reply tells the record as
the event leaves it. R90 to R101: the record joins the table in rising id, every FULL mark is recomputed, and the closures
work, with one event run. The other closures' orders and everything outside R66 and R111's blocks stand. The states before and
after that the CREATED report carries are the model's choice (notes/assumptions/10.md), as are the order of the reports of
several closures (notes/assumptions/8.md) and that of a closure's duties (notes/assumptions/30.md); that a release is tested
once, at the event's end, and that an extension returns a closure in DWELL are DEDUCED (notes/assumptions/9.md, 12.md). That a
request command leaves the receiver in HUNT is the model's choice (notes/assumptions/6.md). -/
def Obligations.ClosureSetRefusesOrMakesTheRecord : Prop :=
  ∀ (s : State) (tag id lanes t f l cap dwell : Byte), s.receptive →
    let i := Instr.closureSet tag [id, lanes, t, f, l, cap, dwell]
    let fields := [decide (1 ≤ id.toNat),
      decide (lanesOf lanes ≠ [] ∧ ∀ x ∈ lanesOf lanes, x ≤ s.params.laneCount),
      decide (1 ≤ t.toNat ∧ t.toNat ≤ 3), decide (t.toNat ≤ f.toNat ∧ f.toNat < s.params.gantryCount),
      decide (f.toNat ≤ l.toNat ∧ l.toNat < s.params.gantryCount), decide (1 ≤ cap.toNat),
      decide (5 ≤ dwell.toNat ∧ dwell.toNat ≤ 120)]
    let upstream := (List.range f.toNat).reverse
    let signing := upstream.filter (fun g => !darkAt s.panels g)
    let formed := if signing.length < t.toNat then upstream.take t.toNat else signing.take t.toNat
    (s.operating = .stopped → OnlyAnswers i s 0xC0 tag [0x03])
    ∧ (s.operating = .running →
        (∀ k, fields.findIdx? (fun ok => !ok) = some k → OnlyAnswers i s 0xC0 tag [0x04, byteOf (k + 1)])
        ∧ (fields.findIdx? (fun ok => !ok) = none →
            ((∃ c ∈ s.closures, c.id = id.toNat) → OnlyAnswers i s 0xC0 tag [0x07])
            ∧ ((∀ c ∈ s.closures, c.id ≠ id.toNat) → 8 ≤ s.closures.length → OnlyAnswers i s 0xC0 tag [0x06])
            ∧ ((∀ c ∈ s.closures, c.id ≠ id.toNat) → s.closures.length < 8 →
                ∃ u rs made, ∃ c ∈ u.closures,
                  Acts i s 0xC0 tag ([0x00, c.state.code, if c.full then 1 else 0, byteOf c.taper.length]
                    ++ c.taper.map byteOf) u (.closureState s.clock .created .requested (some .requested) made :: rs)
                  ∧ made = { made with
                      id := id.toNat, lanes := lanesOf lanes, first := f.toNat, last := l.toNat, taperCount := t.toNat
                      requestedCap := cap.toNat, cap := roundInto s.displayable cap.toNat, dwell := dwell.toNat
                      state := .requested, taper := formed, taperBlocked := false, taperLost := false, slow := false
                      created := s.clock, dwellEntry := none, duties := [] }
                  ∧ OrderKept made c ∧ c.slow = false ∧ formed <+: c.taper
                  ∧ (c.state = .requested ∨ c.state = .arrows ∨ c.state = .dwell)
                  ∧ (ClosuresLegal s →
                      let table := withFull s.params.laneCount (s.closures.filter (fun d => decide (d.id < id.toNat))
                        ++ made :: s.closures.filter (fun d => decide (id.toNat < d.id)))
                      made ∈ table ∧ ClosuresWorked { s with closures := table } u True rs)
                  ∧ OthersStand s u id.toNat
                  ∧ { u with closures := s.closures, arrowMap := s.arrowMap, crossMap := s.crossMap, plan := s.plan,
                             aspects := s.aspects, lines := s.lines, link := s.link } = s)))

/-- R103: id 0 and an id not held are refused. From REQUESTED the record ends at once and is freed; from ARROWS, DWELL and
CLOSED it enters RELEASING without duties, and no arrow or cross of it stays in the maps. From RELEASING the request changes
nothing. R104, R105: the reply's state is ENDED (5) exactly where the closure was REQUESTED or its road has settled, which
frees the record in the same event with a last report; otherwise it is RELEASING (4). R90 to R101: the FULL marks of the
others are recomputed and the closures work, with one event run, the changed aspects handed on (R111). The order of the
reports of several closures and of a closure's duties is the model's choice (notes/assumptions/8.md, 30.md), as is that the
ENDED report from REQUESTED carries FULL as it stood before the release (notes/assumptions/31.md); that a release is tested
once, at the event's end, against the final desired aspects, and that an extension returns a closure in DWELL, are DEDUCED
(notes/assumptions/9.md, 12.md). That a request command leaves the receiver in HUNT is the model's choice
(notes/assumptions/6.md). -/
def Obligations.ClosureReleaseEndsOrReleases : Prop :=
  ∀ (s : State) (tag id : Byte), s.receptive →
    let i := Instr.closureRelease tag [id]
    (id = 0 → OnlyAnswers i s 0xC1 tag [0x04, 1])
    ∧ (id ≠ 0 → (∀ c ∈ s.closures, c.id ≠ id.toNat) → OnlyAnswers i s 0xC1 tag [0x08])
    ∧ (id ≠ 0 → s.operating = .running → ClosuresLegal s → ∀ c ∈ s.closures, c.id = id.toNat →
        let left := { c with state := .releasing, duties := [] }
        let without := withFull s.params.laneCount (s.closures.filter (fun d => d.id != id.toNat))
        let replaced := withFull s.params.laneCount (s.closures.map (fun d => if d.id = id.toNat then left else d))
        (c.state = .releasing → OnlyAnswers i s 0xC1 tag [0x00, 4])
        ∧ (c.state = .requested →
            ∃ u rs, Acts i s 0xC1 tag [0x00, 5] u (.closureState s.clock .state .requested none c :: rs)
              ∧ (∀ d ∈ u.closures, d.id ≠ id.toNat)
              ∧ ClosuresWorked { s with closures := without } u True rs
              ∧ (∀ e ∈ u.arrowMap, e.id ≠ id.toNat) ∧ (∀ e ∈ u.crossMap, e.id ≠ id.toNat)
              ∧ OthersStand s u id.toNat
              ∧ { u with closures := s.closures, arrowMap := s.arrowMap, crossMap := s.crossMap, plan := s.plan,
                         aspects := s.aspects, lines := s.lines, link := s.link } = s)
        ∧ (c.state = .arrows ∨ c.state = .dwell ∨ c.state = .closed →
            ∃ u rs code,
              Acts i s 0xC1 tag [0x00, code] u (.closureState s.clock .state c.state (some .releasing) left :: rs)
              ∧ (RoadSettled u c → code = 5 ∧ (∀ d ∈ u.closures, d.id ≠ id.toNat)
                  ∧ .closureState s.clock .state .releasing none left ∈ rs)
              ∧ (¬ RoadSettled u c → code = 4 ∧ left ∈ u.closures)
              ∧ ClosuresWorked { s with closures := replaced } u True rs
              ∧ (∀ e ∈ u.arrowMap, e.id ≠ id.toNat) ∧ (∀ e ∈ u.crossMap, e.id ≠ id.toNat)
              ∧ OthersStand s u id.toNat
              ∧ { u with closures := s.closures, arrowMap := s.arrowMap, crossMap := s.crossMap, plan := s.plan,
                         aspects := s.aspects, lines := s.lines, link := s.link } = s))

/-- R97: the dwell expiries of an advance are one event: every closure in DWELL whose entry lies dwell + 1 seconds back enters
CLOSED, with its report, its lanes enter the cross map at F..L, and every lane panel there that is not FAILED is desired
CROSS; the closures work, a gantry that joins a taper causing an event run, and the changed aspects are handed on once (R111).
R102: a closure not yet CLOSED whose creation time plus establish_limit is reached becomes SLOW, reported, and nothing else
happens. The model's choices: before those times, in STOPPED, for an id not held, and of the checks while a dwell timer is
due, nothing happens (notes/assumptions/2.md); the command of one closure takes all that are due (notes/assumptions/29.md);
the reports of several closures stand in rising id (notes/assumptions/8.md); the order of a closure's duties
(notes/assumptions/30.md). DEDUCED: a release is tested once, at the event's end (notes/assumptions/9.md); an extension
returns a closure in DWELL (notes/assumptions/12.md). -/
def Obligations.ClosureTimersExpire : Prop :=
  ∀ (s : State) (id : Nat),
    let due := fun (c : Closure) => decide (c.state = .dwell)
      && c.dwellEntry.any (fun e => decide (c.dwell + 1 ≤ (s.clock - e).toNat))
    let late := fun (c : Closure) => decide (c.state = .requested ∨ c.state = .arrows ∨ c.state = .dwell) && !c.slow
      && decide (s.params.establishLimit ≤ (s.clock - c.created).toNat)
    (s.operating = .stopped → exec (.dwellExpiry id) s = .next s ∧ exec (.establishLimitExpiry id) s = .next s)
    ∧ ((∀ c ∈ s.closures, c.id = id → due c = false) → exec (.dwellExpiry id) s = .next s)
    ∧ ((∃ c ∈ s.closures, due c = true) ∨ (∀ c ∈ s.closures, c.id = id → late c = false) →
        exec (.establishLimitExpiry id) s = .next s)
    ∧ (s.operating = .running → ClosuresLegal s → (∃ c ∈ s.closures, c.id = id ∧ due c = true) →
        ∃ u rs,
          Happens (.dwellExpiry id) s u
            ((s.closures.filter due).map
              (fun c => .closureState s.clock .state .dwell (some .closed) { c with state := .closed }) ++ rs)
          ∧ (let table := s.closures.map (fun c => if due c then { c with state := .closed } else c)
             ClosuresWorked { s with closures := table } u False rs)
          ∧ (∀ c ∈ s.closures, due c = true →
              (∃ d ∈ u.closures, d.state = .closed ∧ OrderKept c d)
              ∧ ∀ g l, c.first ≤ g → g ≤ c.last → g < s.params.gantryCount → l ∈ c.lanes → 1 ≤ l →
                  l ≤ s.params.laneCount →
                  (∃ x ∈ u.crossMap, x.gantry = g ∧ x.lane = l ∧ x.id ≤ c.id)
                  ∧ ∀ e ∈ u.aspects, e.panel = ⟨g, l⟩ → s.panelFailed e.panel = false → e.desired = .cross)
          ∧ (∀ c ∈ s.closures, due c = false → c.state ≠ .releasing →
              ∃ d ∈ u.closures, OrderKept c d ∧ d.state ≠ .releasing)
          ∧ { u with closures := s.closures, arrowMap := s.arrowMap, crossMap := s.crossMap, plan := s.plan,
                     aspects := s.aspects, lines := s.lines, link := s.link } = s)
    ∧ (s.operating = .running → (∀ c ∈ s.closures, due c = false) →
        (∃ c ∈ s.closures, c.id = id ∧ late c = true) →
        Happens (.establishLimitExpiry id) s
          { s with closures := s.closures.map (fun c => if late c then { c with slow := true } else c) }
          ((s.closures.filter late).map
            (fun c => .closureState s.clock (.markSet .slow) c.state (some c.state) { c with slow := true })))

/-- R91, R92, R93: where no other closure crosses a taper position and an exit lane is left, the arrow points toward the exit
lane nearest to it, the one toward the nearside of two equally near; with no exit lane left the duty is CAPPED; crossed by
another closure it is NONE. Of the closures asking for an arrow the smallest F decides, then the smallest id; of the closures
that cross a lane the smallest id stands in the cross map. Recomputed, the two maps hold these entries, gantry and lane by
gantry and lane, and no other. -/
def Obligations.ArrowsPointToTheNearestExit : Prop :=
  ∀ (laneCount : Nat) (cs : List Closure) (t l : Nat),
    (∀ c : Closure,
      let crossed := fun x => ∃ d ∈ cs, d.id ≠ c.id ∧ d.state = .closed ∧ d.first ≤ t ∧ t ≤ d.last ∧ x ∈ d.lanes
      let exit := fun x => 1 ≤ x ∧ x ≤ laneCount ∧ ¬ crossed x
        ∧ ∀ d ∈ cs, d.state ≠ .releasing → d.first ≤ c.first → c.first ≤ d.last → x ∉ d.lanes
      (crossed l → dutyKind laneCount cs c t l = .none)
      ∧ (¬ crossed l → (∀ x, ¬ exit x) → dutyKind laneCount cs c t l = .capped)
      ∧ (¬ crossed l → (∃ x, exit x) → dutyKind laneCount cs c t l = .arrow)
      ∧ (c.state = .arrows ∨ c.state = .dwell ∨ c.state = .closed → t ∈ c.taper → l ∈ c.lanes → ¬ crossed l →
          (∃ x, exit x) → ∃ x, exit x ∧ asksArrow laneCount cs t l c = some (if x < l then .near else .off)
            ∧ ∀ y, exit y → (x - l) + (l - x) ≤ (y - l) + (l - y)
              ∧ ((x - l) + (l - x) = (y - l) + (l - y) → x ≤ y)))
    ∧ (∀ e, arrowEntry laneCount cs t l = some e →
        e.gantry = t ∧ e.lane = l ∧ ∃ c ∈ cs, c.id = e.id ∧ asksArrow laneCount cs t l c = some e.arrow
          ∧ ∀ d ∈ cs, (asksArrow laneCount cs t l d).isSome = true →
              c.first < d.first ∨ (c.first = d.first ∧ c.id ≤ d.id))
    ∧ (arrowEntry laneCount cs t l = none → ∀ c ∈ cs, asksArrow laneCount cs t l c = none)
    ∧ (∀ e, crossEntry cs t l = some e →
        e.gantry = t ∧ e.lane = l ∧ (∃ c ∈ cs, c.id = e.id ∧ crossedBy c t l)
          ∧ ∀ d ∈ cs, crossedBy d t l → e.id ≤ d.id)
    ∧ (crossEntry cs t l = none → ∀ c ∈ cs, ¬ crossedBy c t l)
    ∧ ∀ s : State,
        s.remap.arrowMap = arrowMapOf s.params.gantryCount s.params.laneCount s.closures
        ∧ s.remap.crossMap = crossMapOf s.params.gantryCount s.params.laneCount s.closures
        ∧ { s.remap with arrowMap := s.arrowMap, crossMap := s.crossMap } = s
        ∧ (t < s.params.gantryCount → 1 ≤ l → l ≤ s.params.laneCount →
            arrowAt s.remap.arrowMap t l = arrowEntry s.params.laneCount s.closures t l
            ∧ crossAt s.remap.crossMap t l = crossEntry s.closures t l)
        ∧ (¬ (t < s.params.gantryCount ∧ 1 ≤ l ∧ l ≤ s.params.laneCount) →
            arrowAt s.remap.arrowMap t l = none ∧ crossAt s.remap.crossMap t l = none)

/-! ## Aspects (R109 to R123) -/

/-- R110, R112 to R118: a FAILED panel is dark. Otherwise a lane panel shows a cross before an arrow before the shown limit,
and a message panel follows the six positions of R115; the cause follows, RECOVERED after FAILED until the desired aspect
changes. -/
def Obligations.DesiredAspectsFollowTheirPriority : Prop :=
  ∀ (s : State) (old : AspectEntry),
    let new := s.newEntry old
    let p := old.panel
    new.panel = p
    ∧ (s.panelFailed p = true → new.cause = .failed ∧ new.desired = (if p.panel = 0 then .message 0 false else .blank))
    ∧ (s.panelFailed p = false → new.desired = (s.sourceOf p).1
        ∧ new.cause = (if old.cause = .failed ∨ (old.cause = .recovered ∧ new.desired = old.desired) then .recovered
            else (s.sourceOf p).2))
    ∧ (p.panel ≠ 0 →
        (∀ e, crossAt s.crossMap p.gantry p.panel = some e → s.sourceOf p = (.cross, .closure e.id))
        ∧ (crossAt s.crossMap p.gantry p.panel = none →
            (∀ e, arrowAt s.arrowMap p.gantry p.panel = some e →
              s.sourceOf p = (match e.arrow with
                | .near => .arrowNear
                | .off => .arrowOff, .closure e.id))
            ∧ (arrowAt s.arrowMap p.gantry p.panel = none →
                s.sourceOf p =
                  (if (s.planAt p.gantry).shown = s.corridorMax then .blank else .speed (s.planAt p.gantry).shown,
                   match (s.planAt p.gantry).cause with
                   | .plan => .plan
                   | .operator => .operator))))
    ∧ (p.panel = 0 →
        let m := p.gantry
        let reach := fun g => s.chainage m ≤ s.chainage g ∧ s.chainage g ≤ s.chainage m + s.params.legendReach
        let ahead := fun (c : Closure) => (c.state = .arrows ∨ c.state = .dwell ∨ c.state = .closed)
          ∧ (reach c.first ∨ m ∈ c.taper)
        let warned := ∃ w ∈ s.warnings, reach w.gantry
        let congested := s.params.congestionBand ≤ (s.trafficAt m).band
          ∨ (m + 1 < s.params.gantryCount ∧ s.params.congestionBand ≤ (s.trafficAt (m + 1)).band)
        (∀ c ∈ s.closures, ahead c → c.full = true → (∀ d ∈ s.closures, ahead d → d.full = true → c.id ≤ d.id) →
          s.sourceOf p = (.message 4 true, .closure c.id))
        ∧ ((∀ d ∈ s.closures, ahead d → d.full = false) →
            (∀ c ∈ s.closures, ahead c → (∀ d ∈ s.closures, ahead d → c.id ≤ d.id) →
              s.sourceOf p = (.message 3 true, .closure c.id))
            ∧ ((∀ d ∈ s.closures, ¬ ahead d) →
                (warned → s.sourceOf p = (.message 1 true, .warning))
                ∧ (¬ warned → s.legendAt m ≠ 0 → s.sourceOf p = (.message (s.legendAt m) false, .operator))
                ∧ (¬ warned → s.legendAt m = 0 → congested → s.sourceOf p = (.message 2 false, .plan))
                ∧ (¬ warned → s.legendAt m = 0 → ¬ congested → s.sourceOf p = (.message 0 false, .plan)))))

/-- R121, R122: the two restrictiveness orders. R126: a change calls for SAFETY where nothing is confirmed or the new aspect is
the more restrictive. R127: an entry keeps its place and only rises in class; a new one goes to the end. -/
def Obligations.RestrictivenessClassesPendingEntries : Prop :=
  (∀ v w : Nat,
    ([Aspect.cross, .arrowNear, .speed v, .blank].Pairwise (fun a b => a.moreRestrictive b = true ∧ b.moreRestrictive a = false))
    ∧ ([Aspect.cross, .arrowOff, .speed v, .blank].Pairwise (fun a b => a.moreRestrictive b = true ∧ b.moreRestrictive a = false))
    ∧ Aspect.arrowNear.moreRestrictive .arrowOff = false ∧ Aspect.arrowOff.moreRestrictive .arrowNear = false
    ∧ ((Aspect.speed v).moreRestrictive (.speed w) = true ↔ v < w))
  ∧ (∀ a : Aspect, a.moreRestrictive a = false)
  ∧ (∀ x y : Nat, (Aspect.message x true).moreRestrictive (.message y false) = true
      ∧ (Aspect.message x false).moreRestrictive (.message y true) = false)
  ∧ (∀ (on : Bool) (x y : Nat), 5 ≤ x → 5 ≤ y → (Aspect.message x on).moreRestrictive (.message y on) = false
      ∧ ([4, 3, 1, x, 2, 0].Pairwise (fun a b => (Aspect.message a on).moreRestrictive (.message b on) = true
          ∧ (Aspect.message b on).moreRestrictive (.message a on) = false)))
  ∧ (∀ a c : Aspect, callsFor none a = .safety ∧ (callsFor (some c) a = .safety ↔ a.moreRestrictive c = true))
  ∧ ∀ (q : List PendEntry) (address : Nat) (cls : EntryClass),
      ((∀ e ∈ q, e.address ≠ address) → placeEntry q address cls = q ++ [⟨address, cls⟩])
      ∧ ((∃ e ∈ q, e.address = address) →
          (placeEntry q address cls).map (·.address) = q.map (·.address)
          ∧ ∀ (k : Nat) (e : PendEntry), q[k]? = some e → (placeEntry q address cls)[k]? =
              some (if e.address = address ∧ cls = .safety then ⟨address, .safety⟩ else e))

/-- R118: OPERATOR_LEGEND checks its gantry, which must have a message panel, and its code; a repeated code changes nothing;
in STOPPED it is stored alone; in RUNNING the aspect table is recomputed once and handed on (R110, R111), and no run is made.
The model's: several last reports stand in rising id (notes/assumptions/8.md), and a release is tested once, at the event's
end (notes/assumptions/9.md). That a request command leaves the receiver in HUNT is the model's choice
(notes/assumptions/6.md). -/
def Obligations.OperatorLegendIsStored : Prop :=
  ∀ (s : State) (tag g v : Byte), s.receptive →
    let i := Instr.operatorLegend tag [g, v]
    let known := g.toNat < s.params.gantryCount ∧ ∃ r, s.gantry? g.toNat = some r ∧ r.message.isSome = true
    let legal := v = 0 ∨ (5 ≤ v.toNat ∧ v.toNat ≤ 15)
    let stored := { s with legends := s.legends.set g.toNat v.toNat }
    (¬ known → OnlyAnswers i s 0xD1 tag [0x04, 1])
    ∧ (known → ¬ legal → OnlyAnswers i s 0xD1 tag [0x04, 2])
    ∧ (known → legal → v.toNat = s.legendAt g.toNat → OnlyAnswers i s 0xD1 tag [0x00])
    ∧ (known → legal → v.toNat ≠ s.legendAt g.toNat → s.operating = .stopped → Acts i s 0xD1 tag [0x00] stored [])
    ∧ (known → legal → v.toNat ≠ s.legendAt g.toNat → s.operating = .running →
        ∃ u rs, Acts i s 0xD1 tag [0x00] u rs ∧ u.legends = s.legends.set g.toNat v.toNat
          ∧ u.aspects = s.aspects.map stored.newEntry ∧ HandedOn s u ∧ Endings s u rs
          ∧ { u with legends := s.legends, aspects := s.aspects, lines := s.lines, closures := s.closures,
                     link := s.link } = s)

/-! ## Time and the panel lines (R8, R124 to R147) -/

/-- R8, R9: while RUNNING an advance moves the corridor clock and the plan-period timer by one second and nothing else; in
STOPPED there is no advance. R129: the refreshes due on a line join the end of its queue, ROUTINE, in the panels' order; that
one command places all that are due is the model's choice (notes/assumptions/7.md), as is that in STOPPED the two commands
change nothing (notes/assumptions/2.md). -/
def Obligations.TimeAdvancesAndRefreshesQueue : Prop :=
  ∀ s : State,
    (s.operating = .stopped → exec .corridorClockAdvance s = .next s ∧ ∀ l, exec (.refreshDue l) s = .next s)
    ∧ (s.operating = .running →
        exec .corridorClockAdvance s = .next { s with clock := s.clock + 1, planTimer := s.planTimer + 1 }
        ∧ ∀ l, ∃ more : List PendEntry,
            exec (.refreshDue l) s = .next { s with
              lines := s.lines.set l { s.lines.get l with queue := (s.lines.get l).queue ++ more } }
            ∧ (∀ e ∈ more, e.cls = .routine)
            ∧ more.map (·.address) = ((s.panels.filter (fun r => decide (r.addr.line = l
                ∧ (∀ e ∈ (s.lines.get l).queue, e.address ≠ r.addr.address)
                ∧ (∀ t, (s.lines.get l).inFlight = some t → t.address ≠ r.addr.address)
                ∧ s.params.refreshPeriod ≤ (s.clock - r.lastTime).toNat))).map (·.addr.address)))

/-- R128, R130, R178, R179: an IDLE line with NORMAL supply in RUNNING starts the oldest SAFETY entry, or with none the oldest
entry: it leaves the queue, and the panel's desired aspect of that moment is what is sent. Otherwise no transaction starts.
The transmit enable is asserted from the start to the request's end, which releases it and opens the reply window; the reply's
start bit ends that. 10.5, R179: the three bytes of each aspect. An event out of its phase changes nothing (the model's choice,
notes/assumptions/2.md). -/
def Obligations.TransactionsStartTheOldestEntry : Prop :=
  (Aspect.blank.bytes = ⟨0x00, 0, 0⟩ ∧ (∀ v, (Aspect.speed v).bytes = ⟨0x01, byteOf v, 0⟩)
    ∧ Aspect.arrowNear.bytes = ⟨0x02, 0, 0⟩ ∧ Aspect.arrowOff.bytes = ⟨0x03, 0, 0⟩ ∧ Aspect.cross.bytes = ⟨0x04, 0, 0⟩
    ∧ ∀ legend, legend ≤ 15 → (Aspect.message legend false).bytes = ⟨0x08, 0, byteOf legend⟩
        ∧ (Aspect.message legend true).bytes = ⟨0x08, 0, byteOf (128 + legend)⟩)
  ∧ ∀ (s : State) (l : LineId),
    let line := s.lines.get l
    (∀ pre e post r a, s.operating = .running → line.mode = .idle → line.supply = .normal →
      line.queue = pre ++ e :: post →
      ((e.cls = .safety ∧ ∀ x ∈ pre, x.cls = .routine) ∨ (pre = [] ∧ ∀ x ∈ e :: post, x.cls = .routine)) →
      panelOn s.panels l e.address = some r → s.desiredOf r.panel = some a →
      let started := { line with mode := .busy, queue := pre ++ post, inFlight := some ⟨e.address, a.bytes, e.cls, .send⟩ }
      exec (.transactionStart l) s = .next { s with lines := s.lines.set l started } ∧ started.transmitEnable = true)
    ∧ ((s.operating = .stopped ∨ line.mode ≠ .idle ∨ line.supply = .low ∨ line.queue = []) →
        exec (.transactionStart l) s = .next s)
    ∧ (∀ t, line.inFlight = some t →
        let listening := { line with inFlight := some { t with phase := .wait } }
        let receiving := { line with inFlight := some { t with phase := .receive } }
        (t.phase = .send → exec (.requestSent l) s = .next { s with lines := s.lines.set l listening }
          ∧ line.transmitEnable = true ∧ listening.transmitEnable = false)
        ∧ (t.phase ≠ .send → exec (.requestSent l) s = .next s ∧ line.transmitEnable = false)
        ∧ (t.phase = .wait → exec (.replyBegun l) s = .next { s with lines := s.lines.set l receiving }
          ∧ receiving.transmitEnable = false)
        ∧ (t.phase ≠ .wait → exec (.replyBegun l) s = .next s))
    ∧ (line.inFlight = none → exec (.requestSent l) s = .next s ∧ exec (.replyBegun l) s = .next s
        ∧ line.transmitEnable = false)

/-- R130, R132, R134, R135, R137, R148, R166, R180: a readable reply ends the transaction: it confirms its echo and its fault
byte; an echo equal to what was sent is GOOD and brings the pixel failure and the health count, another is MISMATCH, a counted
failure with a retry; a changed confirmed aspect is recorded while CAPTURING. R180: which echoes decode, and to what, for a
lane panel and for the message panel. R134, R138: what the outcome sets off in the closures, the plan, the aspects and the
lines (R111). The model's choices: the order of the reports of several closures (notes/assumptions/8.md) and of a closure's
duties (notes/assumptions/30.md), and the retry's entry before those of the changed aspects (notes/assumptions/28.md).
DEDUCED: a release is tested once, at the event's end (notes/assumptions/9.md); a closure in DWELL whose taper extends returns
to ARROWS at the first join and may re-enter DWELL (notes/assumptions/12.md). -/
def Obligations.ReadableRepliesConfirm : Prop :=
  (∀ panel, panel ≠ 0 →
    decodeAspect panel ⟨0x00, 0, 0⟩ = some .blank ∧ (∀ v : Byte, decodeAspect panel ⟨0x01, v, 0⟩ = some (.speed v.toNat))
    ∧ decodeAspect panel ⟨0x02, 0, 0⟩ = some .arrowNear ∧ decodeAspect panel ⟨0x03, 0, 0⟩ = some .arrowOff
    ∧ decodeAspect panel ⟨0x04, 0, 0⟩ = some .cross
    ∧ ∀ b : AspectBytes, b.legend ≠ 0 ∨ 4 < b.code.toNat ∨ (b.code ≠ 0x01 ∧ b.speed ≠ 0) → decodeAspect panel b = none)
  ∧ (∀ legend, legend ≤ 15 → decodeAspect 0 ⟨0x08, 0, byteOf legend⟩ = some (.message legend false)
      ∧ decodeAspect 0 ⟨0x08, 0, byteOf (128 + legend)⟩ = some (.message legend true))
  ∧ (∀ b : AspectBytes, b.code ≠ 0x08 ∨ b.speed ≠ 0 ∨ b.legend.getLsbD 4 = true ∨ b.legend.getLsbD 5 = true
      ∨ b.legend.getLsbD 6 = true → decodeAspect 0 b = none)
  ∧ ∀ (s : State) (l : LineId) (t : InFlight) (r : PanelRec) (b : AspectBytes) (fault pixel : Byte) (a : Aspect)
    (rest : List RxChar),
    (s.lines.get l).inFlight = some t → t.phase = .receive → panelOn s.panels l t.address = some r →
    decodeAspect r.panel.panel b = some a →
    ∃ u rs new o, Happens (.replyComplete l (replyChars t.address b fault pixel ++ rest)) s u rs
      ∧ OutcomeTaken s u l t.address new
      ∧ new.confirmed = some a ∧ new.fault = some fault ∧ new.lastOutcome = some o ∧ new.lastTime = s.clock
      ∧ new.panel = r.panel ∧ new.addr = r.addr
      ∧ (b = t.sent → o = .good ∧ new.pixel = some (min pixel.toNat 100)
          ∧ new.degraded = decide (s.params.degradePercent ≤ min pixel.toNat 100)
          ∧ ((s.lines.get l).supply = .normal → AfterGood s.params.recoverCount r new))
      ∧ (b ≠ t.sent → o = .mismatch ∧ new.pixel = r.pixel ∧ new.degraded = r.degraded ∧ Retried s u l t new
          ∧ ((s.lines.get l).supply = .normal → AfterFailure s.params.failLimit r new))
      ∧ ((s.lines.get l).supply = .low → NotCounted r new)
      ∧ u.history = (if r.confirmed = some a ∨ s.history.frozen.isSome = true then s.history else
          { s.history with
            ring := (if s.history.ring.length < 64 then s.history.ring else s.history.ring.drop 1)
              ++ [⟨s.clock, r.panel, r.confirmed, a, s.causeOf r.panel, decide (o = .good)⟩]
            written := (s.history.written + 1) % 65536 })
      ∧ ∃ setOff, OutcomeReported s r new o setOff rs ∧ OutcomeActs s u l t new o setOff

/-- R130, R132, R133, R135, R140: a window that closes, a reply that stops short or one that cannot be read is NO_REPLY: a
counted failure, with a retry, that changes nothing the panel has confirmed; while the supply is LOW it is not counted; what
it sets off follows (R134, R138), in the lines too (R111). R125: with no record held for its address the line goes into GAP
and nothing else happens. The model's choices: an end of a transaction that is not in its phase does not occur
(notes/assumptions/2.md); the order of the reports of several closures (notes/assumptions/8.md) and of a closure's duties
(notes/assumptions/30.md); the retry's entry before those of the changed aspects (notes/assumptions/28.md). DEDUCED: a release
is tested once, at the event's end (notes/assumptions/9.md); a closure in DWELL whose taper extends returns to ARROWS at the
first join and may re-enter DWELL (notes/assumptions/12.md). -/
def Obligations.SilentPanelsCountFailures : Prop :=
  ∀ (s : State) (l : LineId) (i : Instr) (phase : Phase) (silent : Nat → Nat → Prop),
    ((i = .replyWindowEnd l ∧ phase = .wait ∧ silent = fun _ _ => True)
      ∨ (i = .replyCharacterTimeout l ∧ phase = .receive ∧ silent = fun _ _ => True)
      ∨ ∃ chars, i = .replyComplete l chars ∧ phase = .receive ∧ silent = fun address panel => Unreadable address panel chars) →
    ((s.lines.get l).inFlight = none → exec i s = .next s)
    ∧ ∀ t, (s.lines.get l).inFlight = some t →
        (t.phase ≠ phase → exec i s = .next s)
        ∧ (t.phase = phase → panelOn s.panels l t.address = none →
            exec i s = .next { s with lines := s.lines.set l { s.lines.get l with mode := .gap, inFlight := none } })
        ∧ (t.phase = phase → ∀ r, panelOn s.panels l t.address = some r →
            silent t.address r.panel.panel →
            ∃ u rs new, Happens i s u rs
              ∧ OutcomeTaken s u l t.address new
              ∧ new = { r with health := new.health, failCount := new.failCount, goodCount := new.goodCount
                               lastOutcome := some .noReply, lastTime := s.clock }
              ∧ ((s.lines.get l).supply = .normal → AfterFailure s.params.failLimit r new)
              ∧ ((s.lines.get l).supply = .low → NotCounted r new)
              ∧ Retried s u l t new ∧ u.history = s.history
              ∧ ∃ setOff, OutcomeReported s r new .noReply setOff rs
                  ∧ OutcomeActs s u l t new .noReply setOff)

/-- R131, R142, R143: LINE_QUIESCE and LINE_RESUME, by the line's state, and the end of the gap; the reply tells the line
state and quiesce pending after the request. A gap's end on a line that is not in GAP changes nothing (the model's choice,
notes/assumptions/2.md). That a request command leaves the receiver in HUNT is the model's choice (notes/assumptions/6.md). -/
def Obligations.LinesQuiesceAndResume : Prop :=
  ∀ (s : State) (tag b : Byte),
    (s.receptive → 3 < b.toNat →
      OnlyAnswers (.lineQuiesce tag [b]) s 0xF0 tag [0x04, 1] ∧ OnlyAnswers (.lineResume tag [b]) s 0xF1 tag [0x04, 1])
    ∧ ∀ l, 
      let line := s.lines.get l
      let becomes := fun (v : Line) => { s with lines := s.lines.set l v }
      let answer := fun (v : Line) => ([0x00, v.mode.code, if v.quiescePending then 1 else 0] : Bytes)
      let quiesced := if line.mode = .idle then { line with mode := .quiesced }
        else if line.mode = .quiesced then line else { line with quiescePending := true }
      let resumed := if line.mode = .quiesced then { line with mode := .idle }
        else if line.mode = .idle then line else { line with quiescePending := false }
      (s.receptive → b.toNat = (match l with
          | .a => 0
          | .b => 1
          | .c => 2
          | .d => 3) →
        Acts (.lineQuiesce tag [b]) s 0xF0 tag (answer quiesced) (becomes quiesced) []
        ∧ Acts (.lineResume tag [b]) s 0xF1 tag (answer resumed) (becomes resumed) [])
      ∧ (line.mode = .gap → exec (.gapEnd l) s = .next (becomes { line with
          mode := if line.quiescePending then .quiesced else .idle, quiescePending := false }))
      ∧ (line.mode ≠ .gap → exec (.gapEnd l) s = .next s)

/-- R139, R141: below 19.0 V a NORMAL line becomes LOW, above 20.5 V a LOW line becomes NORMAL, each with a LINE_STATE report;
when it becomes NORMAL in RUNNING every panel of the line that has no entry and no transaction gets a ROUTINE entry. Between the
levels only the input moves. The levels' resolution (notes/assumptions/5.md), and that the report tells the queue before the
refresh entries join it (notes/assumptions/25.md), are the model's. -/
def Obligations.SupplyCrossesWithHysteresis : Prop :=
  ∀ (s : State) (l : LineId) (level : Nat) (i : Instr), s.nrstLow = false →
    i = .supplyFallLow l level ∨ i = .supplyRiseNormal l level →
    let line := s.lines.get l
    let sensed := { s with sense := s.sense.set l level }
    let report := fun (v : Supply) =>
      Report.lineState s.clock l v line.mode line.quiescePending line.queue.length
    (line.supply = .normal → level < 19000 →
      Happens i s { sensed with lines := s.lines.set l { line with supply := .low } } [report .low])
    ∧ (line.supply = .low → 20500 < level →
        ∃ more : List PendEntry,
          Happens i s { sensed with lines := s.lines.set l { line with supply := .normal, queue := line.queue ++ more } }
            [report .normal]
          ∧ (s.operating = .stopped → more = [])
          ∧ (s.operating = .running → (∀ e ∈ more, e.cls = .routine)
              ∧ more.map (·.address) = ((s.panels.filter (fun r => decide (r.addr.line = l
                  ∧ (∀ e ∈ line.queue, e.address ≠ r.addr.address)
                  ∧ ∀ t, line.inFlight = some t → t.address ≠ r.addr.address))).map (·.addr.address))))
    ∧ ((line.supply = .normal ∧ 19000 ≤ level) ∨ (line.supply = .low ∧ level ≤ 20500) → exec i s = .next sensed)

/-! ## The history capture (R148 to R154) -/

/-- R150 to R153: HISTORY_FREEZE freezes a capture, with the report, and a second one changes nothing; HISTORY_READ tells the
records asked for of a FROZEN capture, oldest first; HISTORY_RESUME empties the capture and sets it CAPTURING. The presence
byte of a previous aspect is the model's (notes/assumptions/14.md). That a request command leaves the receiver in HUNT is the
model's choice (notes/assumptions/6.md). -/
def Obligations.HistoryFreezesReadsAndResumes : Prop :=
  ∀ (s : State) (tag start count : Byte), s.receptive →
    let held := twoBytes s.history.ring.length ++ twoBytes s.history.written
    (s.history.frozen = none →
      Acts (.historyFreeze tag []) s 0xE8 tag ([0x00, 1] ++ encClock s.clock ++ [0] ++ held)
        { s with history := { s.history with frozen := some ⟨s.clock, .request⟩ } }
        [.historyFrozen ⟨s.clock, .request⟩ s.history.ring.length s.history.written]
      ∧ (1 ≤ count.toNat → count.toNat ≤ 8 → OnlyAnswers (.historyRead tag [start, count]) s 0xE9 tag [0x0A]))
    ∧ (∀ f, s.history.frozen = some f →
        OnlyAnswers (.historyFreeze tag []) s 0xE8 tag ([0x00, 0] ++ encClock f.time ++ encFreezeSource f.source ++ held)
        ∧ (1 ≤ count.toNat → count.toNat ≤ 8 →
            let told := ((s.history.ring.zipIdx.drop start.toNat).take count.toNat)
            OnlyAnswers (.historyRead tag [start, count]) s 0xE9 tag
              ([0x00] ++ encClock f.time ++ encFreezeSource f.source ++ held ++ [byteOf told.length]
                ++ told.flatMap (fun x => [byteOf x.2] ++ encClock x.1.time
                    ++ [byteOf x.1.panel.gantry, byteOf x.1.panel.panel] ++ encOpt 3 encAspect x.1.previous
                    ++ encAspect x.1.now ++ encCause x.1.cause ++ [if x.1.good then 0 else 1]))))
    ∧ (¬ (1 ≤ count.toNat ∧ count.toNat ≤ 8) → OnlyAnswers (.historyRead tag [start, count]) s 0xE9 tag [0x04, 2])
    ∧ Acts (.historyResume tag []) s 0xEA tag [0x00] { s with history := ⟨[], 0, none⟩ } []
end

