-- ==== Sys2Proof/Laws/State.lean ====
section
/-! SUPPORT. The frames of the shared operations, once: for each operation and each field of State it does not write, one
lemma that the field stands. Later proofs cite these and unfold no record update. -/

namespace Sys2Proof.Machine

open Sys2Proof

/-! ### setLine writes lines -/

@[simp] theorem State.setLine_pending (s : State) (l : LineId) (v : Line) : (s.setLine l v).pending = s.pending := rfl

@[simp] theorem State.setLine_params (s : State) (l : LineId) (v : Line) : (s.setLine l v).params = s.params := rfl

@[simp] theorem State.setLine_gantries (s : State) (l : LineId) (v : Line) : (s.setLine l v).gantries = s.gantries := rfl

@[simp] theorem State.setLine_speeds (s : State) (l : LineId) (v : Line) : (s.setLine l v).speeds = s.speeds := rfl

@[simp] theorem State.setLine_bands (s : State) (l : LineId) (v : Line) : (s.setLine l v).bands = s.bands := rfl

@[simp] theorem State.setLine_operating (s : State) (l : LineId) (v : Line) : (s.setLine l v).operating = s.operating := rfl

@[simp] theorem State.setLine_clock (s : State) (l : LineId) (v : Line) : (s.setLine l v).clock = s.clock := rfl

@[simp] theorem State.setLine_planTimer (s : State) (l : LineId) (v : Line) : (s.setLine l v).planTimer = s.planTimer := rfl

@[simp] theorem State.setLine_operatorCap (s : State) (l : LineId) (v : Line) : (s.setLine l v).operatorCap = s.operatorCap := rfl

@[simp] theorem State.setLine_resetCause (s : State) (l : LineId) (v : Line) : (s.setLine l v).resetCause = s.resetCause := rfl

@[simp] theorem State.setLine_nrstLow (s : State) (l : LineId) (v : Line) : (s.setLine l v).nrstLow = s.nrstLow := rfl

@[simp] theorem State.setLine_sense (s : State) (l : LineId) (v : Line) : (s.setLine l v).sense = s.sense := rfl

@[simp] theorem State.setLine_traffic (s : State) (l : LineId) (v : Line) : (s.setLine l v).traffic = s.traffic := rfl

@[simp] theorem State.setLine_programs (s : State) (l : LineId) (v : Line) : (s.setLine l v).programs = s.programs := rfl

@[simp] theorem State.setLine_insts (s : State) (l : LineId) (v : Line) : (s.setLine l v).insts = s.insts := rfl

@[simp] theorem State.setLine_warnings (s : State) (l : LineId) (v : Line) : (s.setLine l v).warnings = s.warnings := rfl

@[simp] theorem State.setLine_plan (s : State) (l : LineId) (v : Line) : (s.setLine l v).plan = s.plan := rfl

@[simp] theorem State.setLine_closures (s : State) (l : LineId) (v : Line) : (s.setLine l v).closures = s.closures := rfl

@[simp] theorem State.setLine_arrowMap (s : State) (l : LineId) (v : Line) : (s.setLine l v).arrowMap = s.arrowMap := rfl

@[simp] theorem State.setLine_crossMap (s : State) (l : LineId) (v : Line) : (s.setLine l v).crossMap = s.crossMap := rfl

@[simp] theorem State.setLine_aspects (s : State) (l : LineId) (v : Line) : (s.setLine l v).aspects = s.aspects := rfl

@[simp] theorem State.setLine_legends (s : State) (l : LineId) (v : Line) : (s.setLine l v).legends = s.legends := rfl

@[simp] theorem State.setLine_panels (s : State) (l : LineId) (v : Line) : (s.setLine l v).panels = s.panels := rfl

@[simp] theorem State.setLine_history (s : State) (l : LineId) (v : Line) : (s.setLine l v).history = s.history := rfl

@[simp] theorem State.setLine_link (s : State) (l : LineId) (v : Line) : (s.setLine l v).link = s.link := rfl

/-! ### setSlot writes programs -/

@[simp] theorem State.setSlot_pending (s : State) (p : Nat) (v : ProgramSlot) : (s.setSlot p v).pending = s.pending := rfl

@[simp] theorem State.setSlot_params (s : State) (p : Nat) (v : ProgramSlot) : (s.setSlot p v).params = s.params := rfl

@[simp] theorem State.setSlot_gantries (s : State) (p : Nat) (v : ProgramSlot) : (s.setSlot p v).gantries = s.gantries := rfl

@[simp] theorem State.setSlot_speeds (s : State) (p : Nat) (v : ProgramSlot) : (s.setSlot p v).speeds = s.speeds := rfl

@[simp] theorem State.setSlot_bands (s : State) (p : Nat) (v : ProgramSlot) : (s.setSlot p v).bands = s.bands := rfl

@[simp] theorem State.setSlot_operating (s : State) (p : Nat) (v : ProgramSlot) : (s.setSlot p v).operating = s.operating := rfl

@[simp] theorem State.setSlot_clock (s : State) (p : Nat) (v : ProgramSlot) : (s.setSlot p v).clock = s.clock := rfl

@[simp] theorem State.setSlot_planTimer (s : State) (p : Nat) (v : ProgramSlot) : (s.setSlot p v).planTimer = s.planTimer := rfl

@[simp] theorem State.setSlot_operatorCap (s : State) (p : Nat) (v : ProgramSlot) : (s.setSlot p v).operatorCap = s.operatorCap := rfl

@[simp] theorem State.setSlot_resetCause (s : State) (p : Nat) (v : ProgramSlot) : (s.setSlot p v).resetCause = s.resetCause := rfl

@[simp] theorem State.setSlot_nrstLow (s : State) (p : Nat) (v : ProgramSlot) : (s.setSlot p v).nrstLow = s.nrstLow := rfl

@[simp] theorem State.setSlot_sense (s : State) (p : Nat) (v : ProgramSlot) : (s.setSlot p v).sense = s.sense := rfl

@[simp] theorem State.setSlot_traffic (s : State) (p : Nat) (v : ProgramSlot) : (s.setSlot p v).traffic = s.traffic := rfl

@[simp] theorem State.setSlot_insts (s : State) (p : Nat) (v : ProgramSlot) : (s.setSlot p v).insts = s.insts := rfl

@[simp] theorem State.setSlot_warnings (s : State) (p : Nat) (v : ProgramSlot) : (s.setSlot p v).warnings = s.warnings := rfl

@[simp] theorem State.setSlot_plan (s : State) (p : Nat) (v : ProgramSlot) : (s.setSlot p v).plan = s.plan := rfl

@[simp] theorem State.setSlot_closures (s : State) (p : Nat) (v : ProgramSlot) : (s.setSlot p v).closures = s.closures := rfl

@[simp] theorem State.setSlot_arrowMap (s : State) (p : Nat) (v : ProgramSlot) : (s.setSlot p v).arrowMap = s.arrowMap := rfl

@[simp] theorem State.setSlot_crossMap (s : State) (p : Nat) (v : ProgramSlot) : (s.setSlot p v).crossMap = s.crossMap := rfl

@[simp] theorem State.setSlot_aspects (s : State) (p : Nat) (v : ProgramSlot) : (s.setSlot p v).aspects = s.aspects := rfl

@[simp] theorem State.setSlot_legends (s : State) (p : Nat) (v : ProgramSlot) : (s.setSlot p v).legends = s.legends := rfl

@[simp] theorem State.setSlot_lines (s : State) (p : Nat) (v : ProgramSlot) : (s.setSlot p v).lines = s.lines := rfl

@[simp] theorem State.setSlot_panels (s : State) (p : Nat) (v : ProgramSlot) : (s.setSlot p v).panels = s.panels := rfl

@[simp] theorem State.setSlot_history (s : State) (p : Nat) (v : ProgramSlot) : (s.setSlot p v).history = s.history := rfl

@[simp] theorem State.setSlot_link (s : State) (p : Nat) (v : ProgramSlot) : (s.setSlot p v).link = s.link := rfl

/-! ### setReceiver writes link -/

@[simp] theorem State.setReceiver_pending (s : State) (r : Receiver) : (s.setReceiver r).pending = s.pending := rfl

@[simp] theorem State.setReceiver_params (s : State) (r : Receiver) : (s.setReceiver r).params = s.params := rfl

@[simp] theorem State.setReceiver_gantries (s : State) (r : Receiver) : (s.setReceiver r).gantries = s.gantries := rfl

@[simp] theorem State.setReceiver_speeds (s : State) (r : Receiver) : (s.setReceiver r).speeds = s.speeds := rfl

@[simp] theorem State.setReceiver_bands (s : State) (r : Receiver) : (s.setReceiver r).bands = s.bands := rfl

@[simp] theorem State.setReceiver_operating (s : State) (r : Receiver) : (s.setReceiver r).operating = s.operating := rfl

@[simp] theorem State.setReceiver_clock (s : State) (r : Receiver) : (s.setReceiver r).clock = s.clock := rfl

@[simp] theorem State.setReceiver_planTimer (s : State) (r : Receiver) : (s.setReceiver r).planTimer = s.planTimer := rfl

@[simp] theorem State.setReceiver_operatorCap (s : State) (r : Receiver) : (s.setReceiver r).operatorCap = s.operatorCap := rfl

@[simp] theorem State.setReceiver_resetCause (s : State) (r : Receiver) : (s.setReceiver r).resetCause = s.resetCause := rfl

@[simp] theorem State.setReceiver_nrstLow (s : State) (r : Receiver) : (s.setReceiver r).nrstLow = s.nrstLow := rfl

@[simp] theorem State.setReceiver_sense (s : State) (r : Receiver) : (s.setReceiver r).sense = s.sense := rfl

@[simp] theorem State.setReceiver_traffic (s : State) (r : Receiver) : (s.setReceiver r).traffic = s.traffic := rfl

@[simp] theorem State.setReceiver_programs (s : State) (r : Receiver) : (s.setReceiver r).programs = s.programs := rfl

@[simp] theorem State.setReceiver_insts (s : State) (r : Receiver) : (s.setReceiver r).insts = s.insts := rfl

@[simp] theorem State.setReceiver_warnings (s : State) (r : Receiver) : (s.setReceiver r).warnings = s.warnings := rfl

@[simp] theorem State.setReceiver_plan (s : State) (r : Receiver) : (s.setReceiver r).plan = s.plan := rfl

@[simp] theorem State.setReceiver_closures (s : State) (r : Receiver) : (s.setReceiver r).closures = s.closures := rfl

@[simp] theorem State.setReceiver_arrowMap (s : State) (r : Receiver) : (s.setReceiver r).arrowMap = s.arrowMap := rfl

@[simp] theorem State.setReceiver_crossMap (s : State) (r : Receiver) : (s.setReceiver r).crossMap = s.crossMap := rfl

@[simp] theorem State.setReceiver_aspects (s : State) (r : Receiver) : (s.setReceiver r).aspects = s.aspects := rfl

@[simp] theorem State.setReceiver_legends (s : State) (r : Receiver) : (s.setReceiver r).legends = s.legends := rfl

@[simp] theorem State.setReceiver_lines (s : State) (r : Receiver) : (s.setReceiver r).lines = s.lines := rfl

@[simp] theorem State.setReceiver_panels (s : State) (r : Receiver) : (s.setReceiver r).panels = s.panels := rfl

@[simp] theorem State.setReceiver_history (s : State) (r : Receiver) : (s.setReceiver r).history = s.history := rfl

/-! ### discardFrame writes link -/

@[simp] theorem State.discardFrame_pending (s : State) : (s.discardFrame).pending = s.pending := rfl

@[simp] theorem State.discardFrame_params (s : State) : (s.discardFrame).params = s.params := rfl

@[simp] theorem State.discardFrame_gantries (s : State) : (s.discardFrame).gantries = s.gantries := rfl

@[simp] theorem State.discardFrame_speeds (s : State) : (s.discardFrame).speeds = s.speeds := rfl

@[simp] theorem State.discardFrame_bands (s : State) : (s.discardFrame).bands = s.bands := rfl

@[simp] theorem State.discardFrame_operating (s : State) : (s.discardFrame).operating = s.operating := rfl

@[simp] theorem State.discardFrame_clock (s : State) : (s.discardFrame).clock = s.clock := rfl

@[simp] theorem State.discardFrame_planTimer (s : State) : (s.discardFrame).planTimer = s.planTimer := rfl

@[simp] theorem State.discardFrame_operatorCap (s : State) : (s.discardFrame).operatorCap = s.operatorCap := rfl

@[simp] theorem State.discardFrame_resetCause (s : State) : (s.discardFrame).resetCause = s.resetCause := rfl

@[simp] theorem State.discardFrame_nrstLow (s : State) : (s.discardFrame).nrstLow = s.nrstLow := rfl

@[simp] theorem State.discardFrame_sense (s : State) : (s.discardFrame).sense = s.sense := rfl

@[simp] theorem State.discardFrame_traffic (s : State) : (s.discardFrame).traffic = s.traffic := rfl

@[simp] theorem State.discardFrame_programs (s : State) : (s.discardFrame).programs = s.programs := rfl

@[simp] theorem State.discardFrame_insts (s : State) : (s.discardFrame).insts = s.insts := rfl

@[simp] theorem State.discardFrame_warnings (s : State) : (s.discardFrame).warnings = s.warnings := rfl

@[simp] theorem State.discardFrame_plan (s : State) : (s.discardFrame).plan = s.plan := rfl

@[simp] theorem State.discardFrame_closures (s : State) : (s.discardFrame).closures = s.closures := rfl

@[simp] theorem State.discardFrame_arrowMap (s : State) : (s.discardFrame).arrowMap = s.arrowMap := rfl

@[simp] theorem State.discardFrame_crossMap (s : State) : (s.discardFrame).crossMap = s.crossMap := rfl

@[simp] theorem State.discardFrame_aspects (s : State) : (s.discardFrame).aspects = s.aspects := rfl

@[simp] theorem State.discardFrame_legends (s : State) : (s.discardFrame).legends = s.legends := rfl

@[simp] theorem State.discardFrame_lines (s : State) : (s.discardFrame).lines = s.lines := rfl

@[simp] theorem State.discardFrame_panels (s : State) : (s.discardFrame).panels = s.panels := rfl

@[simp] theorem State.discardFrame_history (s : State) : (s.discardFrame).history = s.history := rfl

/-! ### report writes link -/

@[simp] theorem State.report_pending (s : State) (r : Report) : (s.report r).pending = s.pending := rfl

@[simp] theorem State.report_params (s : State) (r : Report) : (s.report r).params = s.params := rfl

@[simp] theorem State.report_gantries (s : State) (r : Report) : (s.report r).gantries = s.gantries := rfl

@[simp] theorem State.report_speeds (s : State) (r : Report) : (s.report r).speeds = s.speeds := rfl

@[simp] theorem State.report_bands (s : State) (r : Report) : (s.report r).bands = s.bands := rfl

@[simp] theorem State.report_operating (s : State) (r : Report) : (s.report r).operating = s.operating := rfl

@[simp] theorem State.report_clock (s : State) (r : Report) : (s.report r).clock = s.clock := rfl

@[simp] theorem State.report_planTimer (s : State) (r : Report) : (s.report r).planTimer = s.planTimer := rfl

@[simp] theorem State.report_operatorCap (s : State) (r : Report) : (s.report r).operatorCap = s.operatorCap := rfl

@[simp] theorem State.report_resetCause (s : State) (r : Report) : (s.report r).resetCause = s.resetCause := rfl

@[simp] theorem State.report_nrstLow (s : State) (r : Report) : (s.report r).nrstLow = s.nrstLow := rfl

@[simp] theorem State.report_sense (s : State) (r : Report) : (s.report r).sense = s.sense := rfl

@[simp] theorem State.report_traffic (s : State) (r : Report) : (s.report r).traffic = s.traffic := rfl

@[simp] theorem State.report_programs (s : State) (r : Report) : (s.report r).programs = s.programs := rfl

@[simp] theorem State.report_insts (s : State) (r : Report) : (s.report r).insts = s.insts := rfl

@[simp] theorem State.report_warnings (s : State) (r : Report) : (s.report r).warnings = s.warnings := rfl

@[simp] theorem State.report_plan (s : State) (r : Report) : (s.report r).plan = s.plan := rfl

@[simp] theorem State.report_closures (s : State) (r : Report) : (s.report r).closures = s.closures := rfl

@[simp] theorem State.report_arrowMap (s : State) (r : Report) : (s.report r).arrowMap = s.arrowMap := rfl

@[simp] theorem State.report_crossMap (s : State) (r : Report) : (s.report r).crossMap = s.crossMap := rfl

@[simp] theorem State.report_aspects (s : State) (r : Report) : (s.report r).aspects = s.aspects := rfl

@[simp] theorem State.report_legends (s : State) (r : Report) : (s.report r).legends = s.legends := rfl

@[simp] theorem State.report_lines (s : State) (r : Report) : (s.report r).lines = s.lines := rfl

@[simp] theorem State.report_panels (s : State) (r : Report) : (s.report r).panels = s.panels := rfl

@[simp] theorem State.report_history (s : State) (r : Report) : (s.report r).history = s.history := rfl

/-! ### reports writes link -/

@[simp] theorem State.reports_pending (s : State) (rs : List Report) : (s.reports rs).pending = s.pending := rfl

@[simp] theorem State.reports_params (s : State) (rs : List Report) : (s.reports rs).params = s.params := rfl

@[simp] theorem State.reports_gantries (s : State) (rs : List Report) : (s.reports rs).gantries = s.gantries := rfl

@[simp] theorem State.reports_speeds (s : State) (rs : List Report) : (s.reports rs).speeds = s.speeds := rfl

@[simp] theorem State.reports_bands (s : State) (rs : List Report) : (s.reports rs).bands = s.bands := rfl

@[simp] theorem State.reports_operating (s : State) (rs : List Report) : (s.reports rs).operating = s.operating := rfl

@[simp] theorem State.reports_clock (s : State) (rs : List Report) : (s.reports rs).clock = s.clock := rfl

@[simp] theorem State.reports_planTimer (s : State) (rs : List Report) : (s.reports rs).planTimer = s.planTimer := rfl

@[simp] theorem State.reports_operatorCap (s : State) (rs : List Report) : (s.reports rs).operatorCap = s.operatorCap := rfl

@[simp] theorem State.reports_resetCause (s : State) (rs : List Report) : (s.reports rs).resetCause = s.resetCause := rfl

@[simp] theorem State.reports_nrstLow (s : State) (rs : List Report) : (s.reports rs).nrstLow = s.nrstLow := rfl

@[simp] theorem State.reports_sense (s : State) (rs : List Report) : (s.reports rs).sense = s.sense := rfl

@[simp] theorem State.reports_traffic (s : State) (rs : List Report) : (s.reports rs).traffic = s.traffic := rfl

@[simp] theorem State.reports_programs (s : State) (rs : List Report) : (s.reports rs).programs = s.programs := rfl

@[simp] theorem State.reports_insts (s : State) (rs : List Report) : (s.reports rs).insts = s.insts := rfl

@[simp] theorem State.reports_warnings (s : State) (rs : List Report) : (s.reports rs).warnings = s.warnings := rfl

@[simp] theorem State.reports_plan (s : State) (rs : List Report) : (s.reports rs).plan = s.plan := rfl

@[simp] theorem State.reports_closures (s : State) (rs : List Report) : (s.reports rs).closures = s.closures := rfl

@[simp] theorem State.reports_arrowMap (s : State) (rs : List Report) : (s.reports rs).arrowMap = s.arrowMap := rfl

@[simp] theorem State.reports_crossMap (s : State) (rs : List Report) : (s.reports rs).crossMap = s.crossMap := rfl

@[simp] theorem State.reports_aspects (s : State) (rs : List Report) : (s.reports rs).aspects = s.aspects := rfl

@[simp] theorem State.reports_legends (s : State) (rs : List Report) : (s.reports rs).legends = s.legends := rfl

@[simp] theorem State.reports_lines (s : State) (rs : List Report) : (s.reports rs).lines = s.lines := rfl

@[simp] theorem State.reports_panels (s : State) (rs : List Report) : (s.reports rs).panels = s.panels := rfl

@[simp] theorem State.reports_history (s : State) (rs : List Report) : (s.reports rs).history = s.history := rfl

/-! ### transmit writes link -/

@[simp] theorem State.transmit_pending (s : State) : (s.transmit).pending = s.pending := by unfold State.transmit; split <;> rfl

@[simp] theorem State.transmit_params (s : State) : (s.transmit).params = s.params := by unfold State.transmit; split <;> rfl

@[simp] theorem State.transmit_gantries (s : State) : (s.transmit).gantries = s.gantries := by unfold State.transmit; split <;> rfl

@[simp] theorem State.transmit_speeds (s : State) : (s.transmit).speeds = s.speeds := by unfold State.transmit; split <;> rfl

@[simp] theorem State.transmit_bands (s : State) : (s.transmit).bands = s.bands := by unfold State.transmit; split <;> rfl

@[simp] theorem State.transmit_operating (s : State) : (s.transmit).operating = s.operating := by unfold State.transmit; split <;> rfl

@[simp] theorem State.transmit_clock (s : State) : (s.transmit).clock = s.clock := by unfold State.transmit; split <;> rfl

@[simp] theorem State.transmit_planTimer (s : State) : (s.transmit).planTimer = s.planTimer := by unfold State.transmit; split <;> rfl

@[simp] theorem State.transmit_operatorCap (s : State) : (s.transmit).operatorCap = s.operatorCap := by unfold State.transmit; split <;> rfl

@[simp] theorem State.transmit_resetCause (s : State) : (s.transmit).resetCause = s.resetCause := by unfold State.transmit; split <;> rfl

@[simp] theorem State.transmit_nrstLow (s : State) : (s.transmit).nrstLow = s.nrstLow := by unfold State.transmit; split <;> rfl

@[simp] theorem State.transmit_sense (s : State) : (s.transmit).sense = s.sense := by unfold State.transmit; split <;> rfl

@[simp] theorem State.transmit_traffic (s : State) : (s.transmit).traffic = s.traffic := by unfold State.transmit; split <;> rfl

@[simp] theorem State.transmit_programs (s : State) : (s.transmit).programs = s.programs := by unfold State.transmit; split <;> rfl

@[simp] theorem State.transmit_insts (s : State) : (s.transmit).insts = s.insts := by unfold State.transmit; split <;> rfl

@[simp] theorem State.transmit_warnings (s : State) : (s.transmit).warnings = s.warnings := by unfold State.transmit; split <;> rfl

@[simp] theorem State.transmit_plan (s : State) : (s.transmit).plan = s.plan := by unfold State.transmit; split <;> rfl

@[simp] theorem State.transmit_closures (s : State) : (s.transmit).closures = s.closures := by unfold State.transmit; split <;> rfl

@[simp] theorem State.transmit_arrowMap (s : State) : (s.transmit).arrowMap = s.arrowMap := by unfold State.transmit; split <;> rfl

@[simp] theorem State.transmit_crossMap (s : State) : (s.transmit).crossMap = s.crossMap := by unfold State.transmit; split <;> rfl

@[simp] theorem State.transmit_aspects (s : State) : (s.transmit).aspects = s.aspects := by unfold State.transmit; split <;> rfl

@[simp] theorem State.transmit_legends (s : State) : (s.transmit).legends = s.legends := by unfold State.transmit; split <;> rfl

@[simp] theorem State.transmit_lines (s : State) : (s.transmit).lines = s.lines := by unfold State.transmit; split <;> rfl

@[simp] theorem State.transmit_panels (s : State) : (s.transmit).panels = s.panels := by unfold State.transmit; split <;> rfl

@[simp] theorem State.transmit_history (s : State) : (s.transmit).history = s.history := by unfold State.transmit; split <;> rfl

/-! ### runPlan writes plan -/

@[simp] theorem State.runPlan_pending (s : State) (timed : Bool) (initial : Option Nat) : (s.runPlan timed initial).pending = s.pending := rfl

@[simp] theorem State.runPlan_params (s : State) (timed : Bool) (initial : Option Nat) : (s.runPlan timed initial).params = s.params := rfl

@[simp] theorem State.runPlan_gantries (s : State) (timed : Bool) (initial : Option Nat) : (s.runPlan timed initial).gantries = s.gantries := rfl

@[simp] theorem State.runPlan_speeds (s : State) (timed : Bool) (initial : Option Nat) : (s.runPlan timed initial).speeds = s.speeds := rfl

@[simp] theorem State.runPlan_bands (s : State) (timed : Bool) (initial : Option Nat) : (s.runPlan timed initial).bands = s.bands := rfl

@[simp] theorem State.runPlan_operating (s : State) (timed : Bool) (initial : Option Nat) : (s.runPlan timed initial).operating = s.operating := rfl

@[simp] theorem State.runPlan_clock (s : State) (timed : Bool) (initial : Option Nat) : (s.runPlan timed initial).clock = s.clock := rfl

@[simp] theorem State.runPlan_planTimer (s : State) (timed : Bool) (initial : Option Nat) : (s.runPlan timed initial).planTimer = s.planTimer := rfl

@[simp] theorem State.runPlan_operatorCap (s : State) (timed : Bool) (initial : Option Nat) : (s.runPlan timed initial).operatorCap = s.operatorCap := rfl

@[simp] theorem State.runPlan_resetCause (s : State) (timed : Bool) (initial : Option Nat) : (s.runPlan timed initial).resetCause = s.resetCause := rfl

@[simp] theorem State.runPlan_nrstLow (s : State) (timed : Bool) (initial : Option Nat) : (s.runPlan timed initial).nrstLow = s.nrstLow := rfl

@[simp] theorem State.runPlan_sense (s : State) (timed : Bool) (initial : Option Nat) : (s.runPlan timed initial).sense = s.sense := rfl

@[simp] theorem State.runPlan_traffic (s : State) (timed : Bool) (initial : Option Nat) : (s.runPlan timed initial).traffic = s.traffic := rfl

@[simp] theorem State.runPlan_programs (s : State) (timed : Bool) (initial : Option Nat) : (s.runPlan timed initial).programs = s.programs := rfl

@[simp] theorem State.runPlan_insts (s : State) (timed : Bool) (initial : Option Nat) : (s.runPlan timed initial).insts = s.insts := rfl

@[simp] theorem State.runPlan_warnings (s : State) (timed : Bool) (initial : Option Nat) : (s.runPlan timed initial).warnings = s.warnings := rfl

@[simp] theorem State.runPlan_closures (s : State) (timed : Bool) (initial : Option Nat) : (s.runPlan timed initial).closures = s.closures := rfl

@[simp] theorem State.runPlan_arrowMap (s : State) (timed : Bool) (initial : Option Nat) : (s.runPlan timed initial).arrowMap = s.arrowMap := rfl

@[simp] theorem State.runPlan_crossMap (s : State) (timed : Bool) (initial : Option Nat) : (s.runPlan timed initial).crossMap = s.crossMap := rfl

@[simp] theorem State.runPlan_aspects (s : State) (timed : Bool) (initial : Option Nat) : (s.runPlan timed initial).aspects = s.aspects := rfl

@[simp] theorem State.runPlan_legends (s : State) (timed : Bool) (initial : Option Nat) : (s.runPlan timed initial).legends = s.legends := rfl

@[simp] theorem State.runPlan_lines (s : State) (timed : Bool) (initial : Option Nat) : (s.runPlan timed initial).lines = s.lines := rfl

@[simp] theorem State.runPlan_panels (s : State) (timed : Bool) (initial : Option Nat) : (s.runPlan timed initial).panels = s.panels := rfl

@[simp] theorem State.runPlan_history (s : State) (timed : Bool) (initial : Option Nat) : (s.runPlan timed initial).history = s.history := rfl

@[simp] theorem State.runPlan_link (s : State) (timed : Bool) (initial : Option Nat) : (s.runPlan timed initial).link = s.link := rfl

/-! ### resolve writes aspects, lines -/

@[simp] theorem State.resolve_pending (s : State) : (s.resolve).pending = s.pending := rfl

@[simp] theorem State.resolve_params (s : State) : (s.resolve).params = s.params := rfl

@[simp] theorem State.resolve_gantries (s : State) : (s.resolve).gantries = s.gantries := rfl

@[simp] theorem State.resolve_speeds (s : State) : (s.resolve).speeds = s.speeds := rfl

@[simp] theorem State.resolve_bands (s : State) : (s.resolve).bands = s.bands := rfl

@[simp] theorem State.resolve_operating (s : State) : (s.resolve).operating = s.operating := rfl

@[simp] theorem State.resolve_clock (s : State) : (s.resolve).clock = s.clock := rfl

@[simp] theorem State.resolve_planTimer (s : State) : (s.resolve).planTimer = s.planTimer := rfl

@[simp] theorem State.resolve_operatorCap (s : State) : (s.resolve).operatorCap = s.operatorCap := rfl

@[simp] theorem State.resolve_resetCause (s : State) : (s.resolve).resetCause = s.resetCause := rfl

@[simp] theorem State.resolve_nrstLow (s : State) : (s.resolve).nrstLow = s.nrstLow := rfl

@[simp] theorem State.resolve_sense (s : State) : (s.resolve).sense = s.sense := rfl

@[simp] theorem State.resolve_traffic (s : State) : (s.resolve).traffic = s.traffic := rfl

@[simp] theorem State.resolve_programs (s : State) : (s.resolve).programs = s.programs := rfl

@[simp] theorem State.resolve_insts (s : State) : (s.resolve).insts = s.insts := rfl

@[simp] theorem State.resolve_warnings (s : State) : (s.resolve).warnings = s.warnings := rfl

@[simp] theorem State.resolve_plan (s : State) : (s.resolve).plan = s.plan := rfl

@[simp] theorem State.resolve_closures (s : State) : (s.resolve).closures = s.closures := rfl

@[simp] theorem State.resolve_arrowMap (s : State) : (s.resolve).arrowMap = s.arrowMap := rfl

@[simp] theorem State.resolve_crossMap (s : State) : (s.resolve).crossMap = s.crossMap := rfl

@[simp] theorem State.resolve_legends (s : State) : (s.resolve).legends = s.legends := rfl

@[simp] theorem State.resolve_panels (s : State) : (s.resolve).panels = s.panels := rfl

@[simp] theorem State.resolve_history (s : State) : (s.resolve).history = s.history := rfl

@[simp] theorem State.resolve_link (s : State) : (s.resolve).link = s.link := rfl

/-! ### remap writes arrowMap, crossMap -/

@[simp] theorem State.remap_pending (s : State) : (s.remap).pending = s.pending := rfl

@[simp] theorem State.remap_params (s : State) : (s.remap).params = s.params := rfl

@[simp] theorem State.remap_gantries (s : State) : (s.remap).gantries = s.gantries := rfl

@[simp] theorem State.remap_speeds (s : State) : (s.remap).speeds = s.speeds := rfl

@[simp] theorem State.remap_bands (s : State) : (s.remap).bands = s.bands := rfl

@[simp] theorem State.remap_operating (s : State) : (s.remap).operating = s.operating := rfl

@[simp] theorem State.remap_clock (s : State) : (s.remap).clock = s.clock := rfl

@[simp] theorem State.remap_planTimer (s : State) : (s.remap).planTimer = s.planTimer := rfl

@[simp] theorem State.remap_operatorCap (s : State) : (s.remap).operatorCap = s.operatorCap := rfl

@[simp] theorem State.remap_resetCause (s : State) : (s.remap).resetCause = s.resetCause := rfl

@[simp] theorem State.remap_nrstLow (s : State) : (s.remap).nrstLow = s.nrstLow := rfl

@[simp] theorem State.remap_sense (s : State) : (s.remap).sense = s.sense := rfl

@[simp] theorem State.remap_traffic (s : State) : (s.remap).traffic = s.traffic := rfl

@[simp] theorem State.remap_programs (s : State) : (s.remap).programs = s.programs := rfl

@[simp] theorem State.remap_insts (s : State) : (s.remap).insts = s.insts := rfl

@[simp] theorem State.remap_warnings (s : State) : (s.remap).warnings = s.warnings := rfl

@[simp] theorem State.remap_plan (s : State) : (s.remap).plan = s.plan := rfl

@[simp] theorem State.remap_closures (s : State) : (s.remap).closures = s.closures := rfl

@[simp] theorem State.remap_aspects (s : State) : (s.remap).aspects = s.aspects := rfl

@[simp] theorem State.remap_legends (s : State) : (s.remap).legends = s.legends := rfl

@[simp] theorem State.remap_lines (s : State) : (s.remap).lines = s.lines := rfl

@[simp] theorem State.remap_panels (s : State) : (s.remap).panels = s.panels := rfl

@[simp] theorem State.remap_history (s : State) : (s.remap).history = s.history := rfl

@[simp] theorem State.remap_link (s : State) : (s.remap).link = s.link := rfl

/-! ### workClosures writes closures, arrowMap, crossMap, link -/

@[simp] theorem State.workClosures_pending (s : State) : (s.workClosures).pending = s.pending := rfl

@[simp] theorem State.workClosures_params (s : State) : (s.workClosures).params = s.params := rfl

@[simp] theorem State.workClosures_gantries (s : State) : (s.workClosures).gantries = s.gantries := rfl

@[simp] theorem State.workClosures_speeds (s : State) : (s.workClosures).speeds = s.speeds := rfl

@[simp] theorem State.workClosures_bands (s : State) : (s.workClosures).bands = s.bands := rfl

@[simp] theorem State.workClosures_operating (s : State) : (s.workClosures).operating = s.operating := rfl

@[simp] theorem State.workClosures_clock (s : State) : (s.workClosures).clock = s.clock := rfl

@[simp] theorem State.workClosures_planTimer (s : State) : (s.workClosures).planTimer = s.planTimer := rfl

@[simp] theorem State.workClosures_operatorCap (s : State) : (s.workClosures).operatorCap = s.operatorCap := rfl

@[simp] theorem State.workClosures_resetCause (s : State) : (s.workClosures).resetCause = s.resetCause := rfl

@[simp] theorem State.workClosures_nrstLow (s : State) : (s.workClosures).nrstLow = s.nrstLow := rfl

@[simp] theorem State.workClosures_sense (s : State) : (s.workClosures).sense = s.sense := rfl

@[simp] theorem State.workClosures_traffic (s : State) : (s.workClosures).traffic = s.traffic := rfl

@[simp] theorem State.workClosures_programs (s : State) : (s.workClosures).programs = s.programs := rfl

@[simp] theorem State.workClosures_insts (s : State) : (s.workClosures).insts = s.insts := rfl

@[simp] theorem State.workClosures_warnings (s : State) : (s.workClosures).warnings = s.warnings := rfl

@[simp] theorem State.workClosures_plan (s : State) : (s.workClosures).plan = s.plan := rfl

@[simp] theorem State.workClosures_aspects (s : State) : (s.workClosures).aspects = s.aspects := rfl

@[simp] theorem State.workClosures_legends (s : State) : (s.workClosures).legends = s.legends := rfl

@[simp] theorem State.workClosures_lines (s : State) : (s.workClosures).lines = s.lines := rfl

@[simp] theorem State.workClosures_panels (s : State) : (s.workClosures).panels = s.panels := rfl

@[simp] theorem State.workClosures_history (s : State) : (s.workClosures).history = s.history := rfl

/-! ### endReleased writes closures, link -/

@[simp] theorem State.endReleased_pending (s : State) : (s.endReleased).pending = s.pending := rfl

@[simp] theorem State.endReleased_params (s : State) : (s.endReleased).params = s.params := rfl

@[simp] theorem State.endReleased_gantries (s : State) : (s.endReleased).gantries = s.gantries := rfl

@[simp] theorem State.endReleased_speeds (s : State) : (s.endReleased).speeds = s.speeds := rfl

@[simp] theorem State.endReleased_bands (s : State) : (s.endReleased).bands = s.bands := rfl

@[simp] theorem State.endReleased_operating (s : State) : (s.endReleased).operating = s.operating := rfl

@[simp] theorem State.endReleased_clock (s : State) : (s.endReleased).clock = s.clock := rfl

@[simp] theorem State.endReleased_planTimer (s : State) : (s.endReleased).planTimer = s.planTimer := rfl

@[simp] theorem State.endReleased_operatorCap (s : State) : (s.endReleased).operatorCap = s.operatorCap := rfl

@[simp] theorem State.endReleased_resetCause (s : State) : (s.endReleased).resetCause = s.resetCause := rfl

@[simp] theorem State.endReleased_nrstLow (s : State) : (s.endReleased).nrstLow = s.nrstLow := rfl

@[simp] theorem State.endReleased_sense (s : State) : (s.endReleased).sense = s.sense := rfl

@[simp] theorem State.endReleased_traffic (s : State) : (s.endReleased).traffic = s.traffic := rfl

@[simp] theorem State.endReleased_programs (s : State) : (s.endReleased).programs = s.programs := rfl

@[simp] theorem State.endReleased_insts (s : State) : (s.endReleased).insts = s.insts := rfl

@[simp] theorem State.endReleased_warnings (s : State) : (s.endReleased).warnings = s.warnings := rfl

@[simp] theorem State.endReleased_plan (s : State) : (s.endReleased).plan = s.plan := rfl

@[simp] theorem State.endReleased_arrowMap (s : State) : (s.endReleased).arrowMap = s.arrowMap := rfl

@[simp] theorem State.endReleased_crossMap (s : State) : (s.endReleased).crossMap = s.crossMap := rfl

@[simp] theorem State.endReleased_aspects (s : State) : (s.endReleased).aspects = s.aspects := rfl

@[simp] theorem State.endReleased_legends (s : State) : (s.endReleased).legends = s.legends := rfl

@[simp] theorem State.endReleased_lines (s : State) : (s.endReleased).lines = s.lines := rfl

@[simp] theorem State.endReleased_panels (s : State) : (s.endReleased).panels = s.panels := rfl

@[simp] theorem State.endReleased_history (s : State) : (s.endReleased).history = s.history := rfl

/-! ### afterSources writes plan, aspects, lines, closures, link -/

@[simp] theorem State.afterSources_pending (s : State) (demand : Bool) : (s.afterSources demand).pending = s.pending := by
  unfold State.afterSources; split
  · split <;> rfl
  · rfl

@[simp] theorem State.afterSources_params (s : State) (demand : Bool) : (s.afterSources demand).params = s.params := by
  unfold State.afterSources; split
  · split <;> rfl
  · rfl

@[simp] theorem State.afterSources_gantries (s : State) (demand : Bool) : (s.afterSources demand).gantries = s.gantries := by
  unfold State.afterSources; split
  · split <;> rfl
  · rfl

@[simp] theorem State.afterSources_speeds (s : State) (demand : Bool) : (s.afterSources demand).speeds = s.speeds := by
  unfold State.afterSources; split
  · split <;> rfl
  · rfl

@[simp] theorem State.afterSources_bands (s : State) (demand : Bool) : (s.afterSources demand).bands = s.bands := by
  unfold State.afterSources; split
  · split <;> rfl
  · rfl

@[simp] theorem State.afterSources_operating (s : State) (demand : Bool) : (s.afterSources demand).operating = s.operating := by
  unfold State.afterSources; split
  · split <;> rfl
  · rfl

@[simp] theorem State.afterSources_clock (s : State) (demand : Bool) : (s.afterSources demand).clock = s.clock := by
  unfold State.afterSources; split
  · split <;> rfl
  · rfl

@[simp] theorem State.afterSources_planTimer (s : State) (demand : Bool) : (s.afterSources demand).planTimer = s.planTimer := by
  unfold State.afterSources; split
  · split <;> rfl
  · rfl

@[simp] theorem State.afterSources_operatorCap (s : State) (demand : Bool) : (s.afterSources demand).operatorCap = s.operatorCap := by
  unfold State.afterSources; split
  · split <;> rfl
  · rfl

@[simp] theorem State.afterSources_resetCause (s : State) (demand : Bool) : (s.afterSources demand).resetCause = s.resetCause := by
  unfold State.afterSources; split
  · split <;> rfl
  · rfl

@[simp] theorem State.afterSources_nrstLow (s : State) (demand : Bool) : (s.afterSources demand).nrstLow = s.nrstLow := by
  unfold State.afterSources; split
  · split <;> rfl
  · rfl

@[simp] theorem State.afterSources_sense (s : State) (demand : Bool) : (s.afterSources demand).sense = s.sense := by
  unfold State.afterSources; split
  · split <;> rfl
  · rfl

@[simp] theorem State.afterSources_traffic (s : State) (demand : Bool) : (s.afterSources demand).traffic = s.traffic := by
  unfold State.afterSources; split
  · split <;> rfl
  · rfl

@[simp] theorem State.afterSources_programs (s : State) (demand : Bool) : (s.afterSources demand).programs = s.programs := by
  unfold State.afterSources; split
  · split <;> rfl
  · rfl

@[simp] theorem State.afterSources_insts (s : State) (demand : Bool) : (s.afterSources demand).insts = s.insts := by
  unfold State.afterSources; split
  · split <;> rfl
  · rfl

@[simp] theorem State.afterSources_warnings (s : State) (demand : Bool) : (s.afterSources demand).warnings = s.warnings := by
  unfold State.afterSources; split
  · split <;> rfl
  · rfl

@[simp] theorem State.afterSources_arrowMap (s : State) (demand : Bool) : (s.afterSources demand).arrowMap = s.arrowMap := by
  unfold State.afterSources; split
  · split <;> rfl
  · rfl

@[simp] theorem State.afterSources_crossMap (s : State) (demand : Bool) : (s.afterSources demand).crossMap = s.crossMap := by
  unfold State.afterSources; split
  · split <;> rfl
  · rfl

@[simp] theorem State.afterSources_legends (s : State) (demand : Bool) : (s.afterSources demand).legends = s.legends := by
  unfold State.afterSources; split
  · split <;> rfl
  · rfl

@[simp] theorem State.afterSources_panels (s : State) (demand : Bool) : (s.afterSources demand).panels = s.panels := by
  unfold State.afterSources; split
  · split <;> rfl
  · rfl

@[simp] theorem State.afterSources_history (s : State) (demand : Bool) : (s.afterSources demand).history = s.history := by
  unfold State.afterSources; split
  · split <;> rfl
  · rfl

/-! ### afterClosures writes plan, aspects, lines, closures, link, arrowMap, crossMap -/

@[simp] theorem State.afterClosures_pending (s : State) (demand : Bool) : (s.afterClosures demand).pending = s.pending := by unfold State.afterClosures; split <;> simp

@[simp] theorem State.afterClosures_params (s : State) (demand : Bool) : (s.afterClosures demand).params = s.params := by unfold State.afterClosures; split <;> simp

@[simp] theorem State.afterClosures_gantries (s : State) (demand : Bool) : (s.afterClosures demand).gantries = s.gantries := by unfold State.afterClosures; split <;> simp

@[simp] theorem State.afterClosures_speeds (s : State) (demand : Bool) : (s.afterClosures demand).speeds = s.speeds := by unfold State.afterClosures; split <;> simp

@[simp] theorem State.afterClosures_bands (s : State) (demand : Bool) : (s.afterClosures demand).bands = s.bands := by unfold State.afterClosures; split <;> simp

@[simp] theorem State.afterClosures_operating (s : State) (demand : Bool) : (s.afterClosures demand).operating = s.operating := by unfold State.afterClosures; split <;> simp

@[simp] theorem State.afterClosures_clock (s : State) (demand : Bool) : (s.afterClosures demand).clock = s.clock := by unfold State.afterClosures; split <;> simp

@[simp] theorem State.afterClosures_planTimer (s : State) (demand : Bool) : (s.afterClosures demand).planTimer = s.planTimer := by unfold State.afterClosures; split <;> simp

@[simp] theorem State.afterClosures_operatorCap (s : State) (demand : Bool) : (s.afterClosures demand).operatorCap = s.operatorCap := by unfold State.afterClosures; split <;> simp

@[simp] theorem State.afterClosures_resetCause (s : State) (demand : Bool) : (s.afterClosures demand).resetCause = s.resetCause := by unfold State.afterClosures; split <;> simp

@[simp] theorem State.afterClosures_nrstLow (s : State) (demand : Bool) : (s.afterClosures demand).nrstLow = s.nrstLow := by unfold State.afterClosures; split <;> simp

@[simp] theorem State.afterClosures_sense (s : State) (demand : Bool) : (s.afterClosures demand).sense = s.sense := by unfold State.afterClosures; split <;> simp

@[simp] theorem State.afterClosures_traffic (s : State) (demand : Bool) : (s.afterClosures demand).traffic = s.traffic := by unfold State.afterClosures; split <;> simp

@[simp] theorem State.afterClosures_programs (s : State) (demand : Bool) : (s.afterClosures demand).programs = s.programs := by unfold State.afterClosures; split <;> simp

@[simp] theorem State.afterClosures_insts (s : State) (demand : Bool) : (s.afterClosures demand).insts = s.insts := by unfold State.afterClosures; split <;> simp

@[simp] theorem State.afterClosures_warnings (s : State) (demand : Bool) : (s.afterClosures demand).warnings = s.warnings := by unfold State.afterClosures; split <;> simp

@[simp] theorem State.afterClosures_legends (s : State) (demand : Bool) : (s.afterClosures demand).legends = s.legends := by unfold State.afterClosures; split <;> simp

@[simp] theorem State.afterClosures_panels (s : State) (demand : Bool) : (s.afterClosures demand).panels = s.panels := by unfold State.afterClosures; split <;> simp

@[simp] theorem State.afterClosures_history (s : State) (demand : Bool) : (s.afterClosures demand).history = s.history := by unfold State.afterClosures; split <;> simp

/-! ### refresh writes lines -/

@[simp] theorem State.refresh_pending (s : State) (l : LineId) (test : PanelRec → Bool) : (s.refresh l test).pending = s.pending := rfl

@[simp] theorem State.refresh_params (s : State) (l : LineId) (test : PanelRec → Bool) : (s.refresh l test).params = s.params := rfl

@[simp] theorem State.refresh_gantries (s : State) (l : LineId) (test : PanelRec → Bool) : (s.refresh l test).gantries = s.gantries := rfl

@[simp] theorem State.refresh_speeds (s : State) (l : LineId) (test : PanelRec → Bool) : (s.refresh l test).speeds = s.speeds := rfl

@[simp] theorem State.refresh_bands (s : State) (l : LineId) (test : PanelRec → Bool) : (s.refresh l test).bands = s.bands := rfl

@[simp] theorem State.refresh_operating (s : State) (l : LineId) (test : PanelRec → Bool) : (s.refresh l test).operating = s.operating := rfl

@[simp] theorem State.refresh_clock (s : State) (l : LineId) (test : PanelRec → Bool) : (s.refresh l test).clock = s.clock := rfl

@[simp] theorem State.refresh_planTimer (s : State) (l : LineId) (test : PanelRec → Bool) : (s.refresh l test).planTimer = s.planTimer := rfl

@[simp] theorem State.refresh_operatorCap (s : State) (l : LineId) (test : PanelRec → Bool) : (s.refresh l test).operatorCap = s.operatorCap := rfl

@[simp] theorem State.refresh_resetCause (s : State) (l : LineId) (test : PanelRec → Bool) : (s.refresh l test).resetCause = s.resetCause := rfl

@[simp] theorem State.refresh_nrstLow (s : State) (l : LineId) (test : PanelRec → Bool) : (s.refresh l test).nrstLow = s.nrstLow := rfl

@[simp] theorem State.refresh_sense (s : State) (l : LineId) (test : PanelRec → Bool) : (s.refresh l test).sense = s.sense := rfl

@[simp] theorem State.refresh_traffic (s : State) (l : LineId) (test : PanelRec → Bool) : (s.refresh l test).traffic = s.traffic := rfl

@[simp] theorem State.refresh_programs (s : State) (l : LineId) (test : PanelRec → Bool) : (s.refresh l test).programs = s.programs := rfl

@[simp] theorem State.refresh_insts (s : State) (l : LineId) (test : PanelRec → Bool) : (s.refresh l test).insts = s.insts := rfl

@[simp] theorem State.refresh_warnings (s : State) (l : LineId) (test : PanelRec → Bool) : (s.refresh l test).warnings = s.warnings := rfl

@[simp] theorem State.refresh_plan (s : State) (l : LineId) (test : PanelRec → Bool) : (s.refresh l test).plan = s.plan := rfl

@[simp] theorem State.refresh_closures (s : State) (l : LineId) (test : PanelRec → Bool) : (s.refresh l test).closures = s.closures := rfl

@[simp] theorem State.refresh_arrowMap (s : State) (l : LineId) (test : PanelRec → Bool) : (s.refresh l test).arrowMap = s.arrowMap := rfl

@[simp] theorem State.refresh_crossMap (s : State) (l : LineId) (test : PanelRec → Bool) : (s.refresh l test).crossMap = s.crossMap := rfl

@[simp] theorem State.refresh_aspects (s : State) (l : LineId) (test : PanelRec → Bool) : (s.refresh l test).aspects = s.aspects := rfl

@[simp] theorem State.refresh_legends (s : State) (l : LineId) (test : PanelRec → Bool) : (s.refresh l test).legends = s.legends := rfl

@[simp] theorem State.refresh_panels (s : State) (l : LineId) (test : PanelRec → Bool) : (s.refresh l test).panels = s.panels := rfl

@[simp] theorem State.refresh_history (s : State) (l : LineId) (test : PanelRec → Bool) : (s.refresh l test).history = s.history := rfl

@[simp] theorem State.refresh_link (s : State) (l : LineId) (test : PanelRec → Bool) : (s.refresh l test).link = s.link := rfl

/-! ### startTransaction writes lines -/

@[simp] theorem State.startTransaction_pending (s : State) (l : LineId) : (s.startTransaction l).pending = s.pending := by
  unfold State.startTransaction; dsimp only; repeat' split
  all_goals rfl

@[simp] theorem State.startTransaction_params (s : State) (l : LineId) : (s.startTransaction l).params = s.params := by
  unfold State.startTransaction; dsimp only; repeat' split
  all_goals rfl

@[simp] theorem State.startTransaction_gantries (s : State) (l : LineId) : (s.startTransaction l).gantries = s.gantries := by
  unfold State.startTransaction; dsimp only; repeat' split
  all_goals rfl

@[simp] theorem State.startTransaction_speeds (s : State) (l : LineId) : (s.startTransaction l).speeds = s.speeds := by
  unfold State.startTransaction; dsimp only; repeat' split
  all_goals rfl

@[simp] theorem State.startTransaction_bands (s : State) (l : LineId) : (s.startTransaction l).bands = s.bands := by
  unfold State.startTransaction; dsimp only; repeat' split
  all_goals rfl

@[simp] theorem State.startTransaction_operating (s : State) (l : LineId) : (s.startTransaction l).operating = s.operating := by
  unfold State.startTransaction; dsimp only; repeat' split
  all_goals rfl

@[simp] theorem State.startTransaction_clock (s : State) (l : LineId) : (s.startTransaction l).clock = s.clock := by
  unfold State.startTransaction; dsimp only; repeat' split
  all_goals rfl

@[simp] theorem State.startTransaction_planTimer (s : State) (l : LineId) : (s.startTransaction l).planTimer = s.planTimer := by
  unfold State.startTransaction; dsimp only; repeat' split
  all_goals rfl

@[simp] theorem State.startTransaction_operatorCap (s : State) (l : LineId) : (s.startTransaction l).operatorCap = s.operatorCap := by
  unfold State.startTransaction; dsimp only; repeat' split
  all_goals rfl

@[simp] theorem State.startTransaction_resetCause (s : State) (l : LineId) : (s.startTransaction l).resetCause = s.resetCause := by
  unfold State.startTransaction; dsimp only; repeat' split
  all_goals rfl

@[simp] theorem State.startTransaction_nrstLow (s : State) (l : LineId) : (s.startTransaction l).nrstLow = s.nrstLow := by
  unfold State.startTransaction; dsimp only; repeat' split
  all_goals rfl

@[simp] theorem State.startTransaction_sense (s : State) (l : LineId) : (s.startTransaction l).sense = s.sense := by
  unfold State.startTransaction; dsimp only; repeat' split
  all_goals rfl

@[simp] theorem State.startTransaction_traffic (s : State) (l : LineId) : (s.startTransaction l).traffic = s.traffic := by
  unfold State.startTransaction; dsimp only; repeat' split
  all_goals rfl

@[simp] theorem State.startTransaction_programs (s : State) (l : LineId) : (s.startTransaction l).programs = s.programs := by
  unfold State.startTransaction; dsimp only; repeat' split
  all_goals rfl

@[simp] theorem State.startTransaction_insts (s : State) (l : LineId) : (s.startTransaction l).insts = s.insts := by
  unfold State.startTransaction; dsimp only; repeat' split
  all_goals rfl

@[simp] theorem State.startTransaction_warnings (s : State) (l : LineId) : (s.startTransaction l).warnings = s.warnings := by
  unfold State.startTransaction; dsimp only; repeat' split
  all_goals rfl

@[simp] theorem State.startTransaction_plan (s : State) (l : LineId) : (s.startTransaction l).plan = s.plan := by
  unfold State.startTransaction; dsimp only; repeat' split
  all_goals rfl

@[simp] theorem State.startTransaction_closures (s : State) (l : LineId) : (s.startTransaction l).closures = s.closures := by
  unfold State.startTransaction; dsimp only; repeat' split
  all_goals rfl

@[simp] theorem State.startTransaction_arrowMap (s : State) (l : LineId) : (s.startTransaction l).arrowMap = s.arrowMap := by
  unfold State.startTransaction; dsimp only; repeat' split
  all_goals rfl

@[simp] theorem State.startTransaction_crossMap (s : State) (l : LineId) : (s.startTransaction l).crossMap = s.crossMap := by
  unfold State.startTransaction; dsimp only; repeat' split
  all_goals rfl

@[simp] theorem State.startTransaction_aspects (s : State) (l : LineId) : (s.startTransaction l).aspects = s.aspects := by
  unfold State.startTransaction; dsimp only; repeat' split
  all_goals rfl

@[simp] theorem State.startTransaction_legends (s : State) (l : LineId) : (s.startTransaction l).legends = s.legends := by
  unfold State.startTransaction; dsimp only; repeat' split
  all_goals rfl

@[simp] theorem State.startTransaction_panels (s : State) (l : LineId) : (s.startTransaction l).panels = s.panels := by
  unfold State.startTransaction; dsimp only; repeat' split
  all_goals rfl

@[simp] theorem State.startTransaction_history (s : State) (l : LineId) : (s.startTransaction l).history = s.history := by
  unfold State.startTransaction; dsimp only; repeat' split
  all_goals rfl

@[simp] theorem State.startTransaction_link (s : State) (l : LineId) : (s.startTransaction l).link = s.link := by
  unfold State.startTransaction; dsimp only; repeat' split
  all_goals rfl

/-! ### advancePhase writes lines -/

@[simp] theorem State.advancePhase_pending (s : State) (l : LineId) (a b : Phase) : (s.advancePhase l a b).pending = s.pending := by
  unfold State.advancePhase; repeat' split
  all_goals rfl

@[simp] theorem State.advancePhase_params (s : State) (l : LineId) (a b : Phase) : (s.advancePhase l a b).params = s.params := by
  unfold State.advancePhase; repeat' split
  all_goals rfl

@[simp] theorem State.advancePhase_gantries (s : State) (l : LineId) (a b : Phase) : (s.advancePhase l a b).gantries = s.gantries := by
  unfold State.advancePhase; repeat' split
  all_goals rfl

@[simp] theorem State.advancePhase_speeds (s : State) (l : LineId) (a b : Phase) : (s.advancePhase l a b).speeds = s.speeds := by
  unfold State.advancePhase; repeat' split
  all_goals rfl

@[simp] theorem State.advancePhase_bands (s : State) (l : LineId) (a b : Phase) : (s.advancePhase l a b).bands = s.bands := by
  unfold State.advancePhase; repeat' split
  all_goals rfl

@[simp] theorem State.advancePhase_operating (s : State) (l : LineId) (a b : Phase) : (s.advancePhase l a b).operating = s.operating := by
  unfold State.advancePhase; repeat' split
  all_goals rfl

@[simp] theorem State.advancePhase_clock (s : State) (l : LineId) (a b : Phase) : (s.advancePhase l a b).clock = s.clock := by
  unfold State.advancePhase; repeat' split
  all_goals rfl

@[simp] theorem State.advancePhase_planTimer (s : State) (l : LineId) (a b : Phase) : (s.advancePhase l a b).planTimer = s.planTimer := by
  unfold State.advancePhase; repeat' split
  all_goals rfl

@[simp] theorem State.advancePhase_operatorCap (s : State) (l : LineId) (a b : Phase) : (s.advancePhase l a b).operatorCap = s.operatorCap := by
  unfold State.advancePhase; repeat' split
  all_goals rfl

@[simp] theorem State.advancePhase_resetCause (s : State) (l : LineId) (a b : Phase) : (s.advancePhase l a b).resetCause = s.resetCause := by
  unfold State.advancePhase; repeat' split
  all_goals rfl

@[simp] theorem State.advancePhase_nrstLow (s : State) (l : LineId) (a b : Phase) : (s.advancePhase l a b).nrstLow = s.nrstLow := by
  unfold State.advancePhase; repeat' split
  all_goals rfl

@[simp] theorem State.advancePhase_sense (s : State) (l : LineId) (a b : Phase) : (s.advancePhase l a b).sense = s.sense := by
  unfold State.advancePhase; repeat' split
  all_goals rfl

@[simp] theorem State.advancePhase_traffic (s : State) (l : LineId) (a b : Phase) : (s.advancePhase l a b).traffic = s.traffic := by
  unfold State.advancePhase; repeat' split
  all_goals rfl

@[simp] theorem State.advancePhase_programs (s : State) (l : LineId) (a b : Phase) : (s.advancePhase l a b).programs = s.programs := by
  unfold State.advancePhase; repeat' split
  all_goals rfl

@[simp] theorem State.advancePhase_insts (s : State) (l : LineId) (a b : Phase) : (s.advancePhase l a b).insts = s.insts := by
  unfold State.advancePhase; repeat' split
  all_goals rfl

@[simp] theorem State.advancePhase_warnings (s : State) (l : LineId) (a b : Phase) : (s.advancePhase l a b).warnings = s.warnings := by
  unfold State.advancePhase; repeat' split
  all_goals rfl

@[simp] theorem State.advancePhase_plan (s : State) (l : LineId) (a b : Phase) : (s.advancePhase l a b).plan = s.plan := by
  unfold State.advancePhase; repeat' split
  all_goals rfl

@[simp] theorem State.advancePhase_closures (s : State) (l : LineId) (a b : Phase) : (s.advancePhase l a b).closures = s.closures := by
  unfold State.advancePhase; repeat' split
  all_goals rfl

@[simp] theorem State.advancePhase_arrowMap (s : State) (l : LineId) (a b : Phase) : (s.advancePhase l a b).arrowMap = s.arrowMap := by
  unfold State.advancePhase; repeat' split
  all_goals rfl

@[simp] theorem State.advancePhase_crossMap (s : State) (l : LineId) (a b : Phase) : (s.advancePhase l a b).crossMap = s.crossMap := by
  unfold State.advancePhase; repeat' split
  all_goals rfl

@[simp] theorem State.advancePhase_aspects (s : State) (l : LineId) (a b : Phase) : (s.advancePhase l a b).aspects = s.aspects := by
  unfold State.advancePhase; repeat' split
  all_goals rfl

@[simp] theorem State.advancePhase_legends (s : State) (l : LineId) (a b : Phase) : (s.advancePhase l a b).legends = s.legends := by
  unfold State.advancePhase; repeat' split
  all_goals rfl

@[simp] theorem State.advancePhase_panels (s : State) (l : LineId) (a b : Phase) : (s.advancePhase l a b).panels = s.panels := by
  unfold State.advancePhase; repeat' split
  all_goals rfl

@[simp] theorem State.advancePhase_history (s : State) (l : LineId) (a b : Phase) : (s.advancePhase l a b).history = s.history := by
  unfold State.advancePhase; repeat' split
  all_goals rfl

@[simp] theorem State.advancePhase_link (s : State) (l : LineId) (a b : Phase) : (s.advancePhase l a b).link = s.link := by
  unfold State.advancePhase; repeat' split
  all_goals rfl

/-! ### endGap writes lines -/

@[simp] theorem State.endGap_pending (s : State) (l : LineId) : (s.endGap l).pending = s.pending := by unfold State.endGap; dsimp only; split <;> rfl

@[simp] theorem State.endGap_params (s : State) (l : LineId) : (s.endGap l).params = s.params := by unfold State.endGap; dsimp only; split <;> rfl

@[simp] theorem State.endGap_gantries (s : State) (l : LineId) : (s.endGap l).gantries = s.gantries := by unfold State.endGap; dsimp only; split <;> rfl

@[simp] theorem State.endGap_speeds (s : State) (l : LineId) : (s.endGap l).speeds = s.speeds := by unfold State.endGap; dsimp only; split <;> rfl

@[simp] theorem State.endGap_bands (s : State) (l : LineId) : (s.endGap l).bands = s.bands := by unfold State.endGap; dsimp only; split <;> rfl

@[simp] theorem State.endGap_operating (s : State) (l : LineId) : (s.endGap l).operating = s.operating := by unfold State.endGap; dsimp only; split <;> rfl

@[simp] theorem State.endGap_clock (s : State) (l : LineId) : (s.endGap l).clock = s.clock := by unfold State.endGap; dsimp only; split <;> rfl

@[simp] theorem State.endGap_planTimer (s : State) (l : LineId) : (s.endGap l).planTimer = s.planTimer := by unfold State.endGap; dsimp only; split <;> rfl

@[simp] theorem State.endGap_operatorCap (s : State) (l : LineId) : (s.endGap l).operatorCap = s.operatorCap := by unfold State.endGap; dsimp only; split <;> rfl

@[simp] theorem State.endGap_resetCause (s : State) (l : LineId) : (s.endGap l).resetCause = s.resetCause := by unfold State.endGap; dsimp only; split <;> rfl

@[simp] theorem State.endGap_nrstLow (s : State) (l : LineId) : (s.endGap l).nrstLow = s.nrstLow := by unfold State.endGap; dsimp only; split <;> rfl

@[simp] theorem State.endGap_sense (s : State) (l : LineId) : (s.endGap l).sense = s.sense := by unfold State.endGap; dsimp only; split <;> rfl

@[simp] theorem State.endGap_traffic (s : State) (l : LineId) : (s.endGap l).traffic = s.traffic := by unfold State.endGap; dsimp only; split <;> rfl

@[simp] theorem State.endGap_programs (s : State) (l : LineId) : (s.endGap l).programs = s.programs := by unfold State.endGap; dsimp only; split <;> rfl

@[simp] theorem State.endGap_insts (s : State) (l : LineId) : (s.endGap l).insts = s.insts := by unfold State.endGap; dsimp only; split <;> rfl

@[simp] theorem State.endGap_warnings (s : State) (l : LineId) : (s.endGap l).warnings = s.warnings := by unfold State.endGap; dsimp only; split <;> rfl

@[simp] theorem State.endGap_plan (s : State) (l : LineId) : (s.endGap l).plan = s.plan := by unfold State.endGap; dsimp only; split <;> rfl

@[simp] theorem State.endGap_closures (s : State) (l : LineId) : (s.endGap l).closures = s.closures := by unfold State.endGap; dsimp only; split <;> rfl

@[simp] theorem State.endGap_arrowMap (s : State) (l : LineId) : (s.endGap l).arrowMap = s.arrowMap := by unfold State.endGap; dsimp only; split <;> rfl

@[simp] theorem State.endGap_crossMap (s : State) (l : LineId) : (s.endGap l).crossMap = s.crossMap := by unfold State.endGap; dsimp only; split <;> rfl

@[simp] theorem State.endGap_aspects (s : State) (l : LineId) : (s.endGap l).aspects = s.aspects := by unfold State.endGap; dsimp only; split <;> rfl

@[simp] theorem State.endGap_legends (s : State) (l : LineId) : (s.endGap l).legends = s.legends := by unfold State.endGap; dsimp only; split <;> rfl

@[simp] theorem State.endGap_panels (s : State) (l : LineId) : (s.endGap l).panels = s.panels := by unfold State.endGap; dsimp only; split <;> rfl

@[simp] theorem State.endGap_history (s : State) (l : LineId) : (s.endGap l).history = s.history := by unfold State.endGap; dsimp only; split <;> rfl

@[simp] theorem State.endGap_link (s : State) (l : LineId) : (s.endGap l).link = s.link := by unfold State.endGap; dsimp only; split <;> rfl

/-! ### freeze writes history, link -/

@[simp] theorem State.freeze_pending (s : State) (src : FreezeSource) : (s.freeze src).pending = s.pending := by unfold State.freeze; split <;> rfl

@[simp] theorem State.freeze_params (s : State) (src : FreezeSource) : (s.freeze src).params = s.params := by unfold State.freeze; split <;> rfl

@[simp] theorem State.freeze_gantries (s : State) (src : FreezeSource) : (s.freeze src).gantries = s.gantries := by unfold State.freeze; split <;> rfl

@[simp] theorem State.freeze_speeds (s : State) (src : FreezeSource) : (s.freeze src).speeds = s.speeds := by unfold State.freeze; split <;> rfl

@[simp] theorem State.freeze_bands (s : State) (src : FreezeSource) : (s.freeze src).bands = s.bands := by unfold State.freeze; split <;> rfl

@[simp] theorem State.freeze_operating (s : State) (src : FreezeSource) : (s.freeze src).operating = s.operating := by unfold State.freeze; split <;> rfl

@[simp] theorem State.freeze_clock (s : State) (src : FreezeSource) : (s.freeze src).clock = s.clock := by unfold State.freeze; split <;> rfl

@[simp] theorem State.freeze_planTimer (s : State) (src : FreezeSource) : (s.freeze src).planTimer = s.planTimer := by unfold State.freeze; split <;> rfl

@[simp] theorem State.freeze_operatorCap (s : State) (src : FreezeSource) : (s.freeze src).operatorCap = s.operatorCap := by unfold State.freeze; split <;> rfl

@[simp] theorem State.freeze_resetCause (s : State) (src : FreezeSource) : (s.freeze src).resetCause = s.resetCause := by unfold State.freeze; split <;> rfl

@[simp] theorem State.freeze_nrstLow (s : State) (src : FreezeSource) : (s.freeze src).nrstLow = s.nrstLow := by unfold State.freeze; split <;> rfl

@[simp] theorem State.freeze_sense (s : State) (src : FreezeSource) : (s.freeze src).sense = s.sense := by unfold State.freeze; split <;> rfl

@[simp] theorem State.freeze_traffic (s : State) (src : FreezeSource) : (s.freeze src).traffic = s.traffic := by unfold State.freeze; split <;> rfl

@[simp] theorem State.freeze_programs (s : State) (src : FreezeSource) : (s.freeze src).programs = s.programs := by unfold State.freeze; split <;> rfl

@[simp] theorem State.freeze_insts (s : State) (src : FreezeSource) : (s.freeze src).insts = s.insts := by unfold State.freeze; split <;> rfl

@[simp] theorem State.freeze_warnings (s : State) (src : FreezeSource) : (s.freeze src).warnings = s.warnings := by unfold State.freeze; split <;> rfl

@[simp] theorem State.freeze_plan (s : State) (src : FreezeSource) : (s.freeze src).plan = s.plan := by unfold State.freeze; split <;> rfl

@[simp] theorem State.freeze_closures (s : State) (src : FreezeSource) : (s.freeze src).closures = s.closures := by unfold State.freeze; split <;> rfl

@[simp] theorem State.freeze_arrowMap (s : State) (src : FreezeSource) : (s.freeze src).arrowMap = s.arrowMap := by unfold State.freeze; split <;> rfl

@[simp] theorem State.freeze_crossMap (s : State) (src : FreezeSource) : (s.freeze src).crossMap = s.crossMap := by unfold State.freeze; split <;> rfl

@[simp] theorem State.freeze_aspects (s : State) (src : FreezeSource) : (s.freeze src).aspects = s.aspects := by unfold State.freeze; split <;> rfl

@[simp] theorem State.freeze_legends (s : State) (src : FreezeSource) : (s.freeze src).legends = s.legends := by unfold State.freeze; split <;> rfl

@[simp] theorem State.freeze_lines (s : State) (src : FreezeSource) : (s.freeze src).lines = s.lines := by unfold State.freeze; split <;> rfl

@[simp] theorem State.freeze_panels (s : State) (src : FreezeSource) : (s.freeze src).panels = s.panels := by unfold State.freeze; split <;> rfl

/-! ### endWarning writes warnings, link -/

@[simp] theorem State.endWarning_pending (s : State) (w : Warning) (r : EndReason) : (s.endWarning w r).pending = s.pending := rfl

@[simp] theorem State.endWarning_params (s : State) (w : Warning) (r : EndReason) : (s.endWarning w r).params = s.params := rfl

@[simp] theorem State.endWarning_gantries (s : State) (w : Warning) (r : EndReason) : (s.endWarning w r).gantries = s.gantries := rfl

@[simp] theorem State.endWarning_speeds (s : State) (w : Warning) (r : EndReason) : (s.endWarning w r).speeds = s.speeds := rfl

@[simp] theorem State.endWarning_bands (s : State) (w : Warning) (r : EndReason) : (s.endWarning w r).bands = s.bands := rfl

@[simp] theorem State.endWarning_operating (s : State) (w : Warning) (r : EndReason) : (s.endWarning w r).operating = s.operating := rfl

@[simp] theorem State.endWarning_clock (s : State) (w : Warning) (r : EndReason) : (s.endWarning w r).clock = s.clock := rfl

@[simp] theorem State.endWarning_planTimer (s : State) (w : Warning) (r : EndReason) : (s.endWarning w r).planTimer = s.planTimer := rfl

@[simp] theorem State.endWarning_operatorCap (s : State) (w : Warning) (r : EndReason) : (s.endWarning w r).operatorCap = s.operatorCap := rfl

@[simp] theorem State.endWarning_resetCause (s : State) (w : Warning) (r : EndReason) : (s.endWarning w r).resetCause = s.resetCause := rfl

@[simp] theorem State.endWarning_nrstLow (s : State) (w : Warning) (r : EndReason) : (s.endWarning w r).nrstLow = s.nrstLow := rfl

@[simp] theorem State.endWarning_sense (s : State) (w : Warning) (r : EndReason) : (s.endWarning w r).sense = s.sense := rfl

@[simp] theorem State.endWarning_traffic (s : State) (w : Warning) (r : EndReason) : (s.endWarning w r).traffic = s.traffic := rfl

@[simp] theorem State.endWarning_programs (s : State) (w : Warning) (r : EndReason) : (s.endWarning w r).programs = s.programs := rfl

@[simp] theorem State.endWarning_insts (s : State) (w : Warning) (r : EndReason) : (s.endWarning w r).insts = s.insts := rfl

@[simp] theorem State.endWarning_plan (s : State) (w : Warning) (r : EndReason) : (s.endWarning w r).plan = s.plan := rfl

@[simp] theorem State.endWarning_closures (s : State) (w : Warning) (r : EndReason) : (s.endWarning w r).closures = s.closures := rfl

@[simp] theorem State.endWarning_arrowMap (s : State) (w : Warning) (r : EndReason) : (s.endWarning w r).arrowMap = s.arrowMap := rfl

@[simp] theorem State.endWarning_crossMap (s : State) (w : Warning) (r : EndReason) : (s.endWarning w r).crossMap = s.crossMap := rfl

@[simp] theorem State.endWarning_aspects (s : State) (w : Warning) (r : EndReason) : (s.endWarning w r).aspects = s.aspects := rfl

@[simp] theorem State.endWarning_legends (s : State) (w : Warning) (r : EndReason) : (s.endWarning w r).legends = s.legends := rfl

@[simp] theorem State.endWarning_lines (s : State) (w : Warning) (r : EndReason) : (s.endWarning w r).lines = s.lines := rfl

@[simp] theorem State.endWarning_panels (s : State) (w : Warning) (r : EndReason) : (s.endWarning w r).panels = s.panels := rfl

@[simp] theorem State.endWarning_history (s : State) (w : Warning) (r : EndReason) : (s.endWarning w r).history = s.history := rfl

/-! ### announceWarning writes link -/

@[simp] theorem State.announceWarning_pending (s : State) (ws : List Warning) (g : Nat) : (s.announceWarning ws g).pending = s.pending := by unfold State.announceWarning; split <;> rfl

@[simp] theorem State.announceWarning_params (s : State) (ws : List Warning) (g : Nat) : (s.announceWarning ws g).params = s.params := by unfold State.announceWarning; split <;> rfl

@[simp] theorem State.announceWarning_gantries (s : State) (ws : List Warning) (g : Nat) : (s.announceWarning ws g).gantries = s.gantries := by unfold State.announceWarning; split <;> rfl

@[simp] theorem State.announceWarning_speeds (s : State) (ws : List Warning) (g : Nat) : (s.announceWarning ws g).speeds = s.speeds := by unfold State.announceWarning; split <;> rfl

@[simp] theorem State.announceWarning_bands (s : State) (ws : List Warning) (g : Nat) : (s.announceWarning ws g).bands = s.bands := by unfold State.announceWarning; split <;> rfl

@[simp] theorem State.announceWarning_operating (s : State) (ws : List Warning) (g : Nat) : (s.announceWarning ws g).operating = s.operating := by unfold State.announceWarning; split <;> rfl

@[simp] theorem State.announceWarning_clock (s : State) (ws : List Warning) (g : Nat) : (s.announceWarning ws g).clock = s.clock := by unfold State.announceWarning; split <;> rfl

@[simp] theorem State.announceWarning_planTimer (s : State) (ws : List Warning) (g : Nat) : (s.announceWarning ws g).planTimer = s.planTimer := by unfold State.announceWarning; split <;> rfl

@[simp] theorem State.announceWarning_operatorCap (s : State) (ws : List Warning) (g : Nat) : (s.announceWarning ws g).operatorCap = s.operatorCap := by unfold State.announceWarning; split <;> rfl

@[simp] theorem State.announceWarning_resetCause (s : State) (ws : List Warning) (g : Nat) : (s.announceWarning ws g).resetCause = s.resetCause := by unfold State.announceWarning; split <;> rfl

@[simp] theorem State.announceWarning_nrstLow (s : State) (ws : List Warning) (g : Nat) : (s.announceWarning ws g).nrstLow = s.nrstLow := by unfold State.announceWarning; split <;> rfl

@[simp] theorem State.announceWarning_sense (s : State) (ws : List Warning) (g : Nat) : (s.announceWarning ws g).sense = s.sense := by unfold State.announceWarning; split <;> rfl

@[simp] theorem State.announceWarning_traffic (s : State) (ws : List Warning) (g : Nat) : (s.announceWarning ws g).traffic = s.traffic := by unfold State.announceWarning; split <;> rfl

@[simp] theorem State.announceWarning_programs (s : State) (ws : List Warning) (g : Nat) : (s.announceWarning ws g).programs = s.programs := by unfold State.announceWarning; split <;> rfl

@[simp] theorem State.announceWarning_insts (s : State) (ws : List Warning) (g : Nat) : (s.announceWarning ws g).insts = s.insts := by unfold State.announceWarning; split <;> rfl

@[simp] theorem State.announceWarning_warnings (s : State) (ws : List Warning) (g : Nat) : (s.announceWarning ws g).warnings = s.warnings := by unfold State.announceWarning; split <;> rfl

@[simp] theorem State.announceWarning_plan (s : State) (ws : List Warning) (g : Nat) : (s.announceWarning ws g).plan = s.plan := by unfold State.announceWarning; split <;> rfl

@[simp] theorem State.announceWarning_closures (s : State) (ws : List Warning) (g : Nat) : (s.announceWarning ws g).closures = s.closures := by unfold State.announceWarning; split <;> rfl

@[simp] theorem State.announceWarning_arrowMap (s : State) (ws : List Warning) (g : Nat) : (s.announceWarning ws g).arrowMap = s.arrowMap := by unfold State.announceWarning; split <;> rfl

@[simp] theorem State.announceWarning_crossMap (s : State) (ws : List Warning) (g : Nat) : (s.announceWarning ws g).crossMap = s.crossMap := by unfold State.announceWarning; split <;> rfl

@[simp] theorem State.announceWarning_aspects (s : State) (ws : List Warning) (g : Nat) : (s.announceWarning ws g).aspects = s.aspects := by unfold State.announceWarning; split <;> rfl

@[simp] theorem State.announceWarning_legends (s : State) (ws : List Warning) (g : Nat) : (s.announceWarning ws g).legends = s.legends := by unfold State.announceWarning; split <;> rfl

@[simp] theorem State.announceWarning_lines (s : State) (ws : List Warning) (g : Nat) : (s.announceWarning ws g).lines = s.lines := by unfold State.announceWarning; split <;> rfl

@[simp] theorem State.announceWarning_panels (s : State) (ws : List Warning) (g : Nat) : (s.announceWarning ws g).panels = s.panels := by unfold State.announceWarning; split <;> rfl

@[simp] theorem State.announceWarning_history (s : State) (ws : List Warning) (g : Nat) : (s.announceWarning ws g).history = s.history := by unfold State.announceWarning; split <;> rfl

/-! ### updateHold writes warnings, link -/

@[simp] theorem State.updateHold_pending (s : State) (evs : List Evaluated) (g : Nat) : (s.updateHold evs g).pending = s.pending := by
  unfold State.updateHold; repeat' split
  all_goals rfl

@[simp] theorem State.updateHold_params (s : State) (evs : List Evaluated) (g : Nat) : (s.updateHold evs g).params = s.params := by
  unfold State.updateHold; repeat' split
  all_goals rfl

@[simp] theorem State.updateHold_gantries (s : State) (evs : List Evaluated) (g : Nat) : (s.updateHold evs g).gantries = s.gantries := by
  unfold State.updateHold; repeat' split
  all_goals rfl

@[simp] theorem State.updateHold_speeds (s : State) (evs : List Evaluated) (g : Nat) : (s.updateHold evs g).speeds = s.speeds := by
  unfold State.updateHold; repeat' split
  all_goals rfl

@[simp] theorem State.updateHold_bands (s : State) (evs : List Evaluated) (g : Nat) : (s.updateHold evs g).bands = s.bands := by
  unfold State.updateHold; repeat' split
  all_goals rfl

@[simp] theorem State.updateHold_operating (s : State) (evs : List Evaluated) (g : Nat) : (s.updateHold evs g).operating = s.operating := by
  unfold State.updateHold; repeat' split
  all_goals rfl

@[simp] theorem State.updateHold_clock (s : State) (evs : List Evaluated) (g : Nat) : (s.updateHold evs g).clock = s.clock := by
  unfold State.updateHold; repeat' split
  all_goals rfl

@[simp] theorem State.updateHold_planTimer (s : State) (evs : List Evaluated) (g : Nat) : (s.updateHold evs g).planTimer = s.planTimer := by
  unfold State.updateHold; repeat' split
  all_goals rfl

@[simp] theorem State.updateHold_operatorCap (s : State) (evs : List Evaluated) (g : Nat) : (s.updateHold evs g).operatorCap = s.operatorCap := by
  unfold State.updateHold; repeat' split
  all_goals rfl

@[simp] theorem State.updateHold_resetCause (s : State) (evs : List Evaluated) (g : Nat) : (s.updateHold evs g).resetCause = s.resetCause := by
  unfold State.updateHold; repeat' split
  all_goals rfl

@[simp] theorem State.updateHold_nrstLow (s : State) (evs : List Evaluated) (g : Nat) : (s.updateHold evs g).nrstLow = s.nrstLow := by
  unfold State.updateHold; repeat' split
  all_goals rfl

@[simp] theorem State.updateHold_sense (s : State) (evs : List Evaluated) (g : Nat) : (s.updateHold evs g).sense = s.sense := by
  unfold State.updateHold; repeat' split
  all_goals rfl

@[simp] theorem State.updateHold_traffic (s : State) (evs : List Evaluated) (g : Nat) : (s.updateHold evs g).traffic = s.traffic := by
  unfold State.updateHold; repeat' split
  all_goals rfl

@[simp] theorem State.updateHold_programs (s : State) (evs : List Evaluated) (g : Nat) : (s.updateHold evs g).programs = s.programs := by
  unfold State.updateHold; repeat' split
  all_goals rfl

@[simp] theorem State.updateHold_insts (s : State) (evs : List Evaluated) (g : Nat) : (s.updateHold evs g).insts = s.insts := by
  unfold State.updateHold; repeat' split
  all_goals rfl

@[simp] theorem State.updateHold_plan (s : State) (evs : List Evaluated) (g : Nat) : (s.updateHold evs g).plan = s.plan := by
  unfold State.updateHold; repeat' split
  all_goals rfl

@[simp] theorem State.updateHold_closures (s : State) (evs : List Evaluated) (g : Nat) : (s.updateHold evs g).closures = s.closures := by
  unfold State.updateHold; repeat' split
  all_goals rfl

@[simp] theorem State.updateHold_arrowMap (s : State) (evs : List Evaluated) (g : Nat) : (s.updateHold evs g).arrowMap = s.arrowMap := by
  unfold State.updateHold; repeat' split
  all_goals rfl

@[simp] theorem State.updateHold_crossMap (s : State) (evs : List Evaluated) (g : Nat) : (s.updateHold evs g).crossMap = s.crossMap := by
  unfold State.updateHold; repeat' split
  all_goals rfl

@[simp] theorem State.updateHold_aspects (s : State) (evs : List Evaluated) (g : Nat) : (s.updateHold evs g).aspects = s.aspects := by
  unfold State.updateHold; repeat' split
  all_goals rfl

@[simp] theorem State.updateHold_legends (s : State) (evs : List Evaluated) (g : Nat) : (s.updateHold evs g).legends = s.legends := by
  unfold State.updateHold; repeat' split
  all_goals rfl

@[simp] theorem State.updateHold_lines (s : State) (evs : List Evaluated) (g : Nat) : (s.updateHold evs g).lines = s.lines := by
  unfold State.updateHold; repeat' split
  all_goals rfl

@[simp] theorem State.updateHold_panels (s : State) (evs : List Evaluated) (g : Nat) : (s.updateHold evs g).panels = s.panels := by
  unfold State.updateHold; repeat' split
  all_goals rfl

@[simp] theorem State.updateHold_history (s : State) (evs : List Evaluated) (g : Nat) : (s.updateHold evs g).history = s.history := by
  unfold State.updateHold; repeat' split
  all_goals rfl

/-! ### fire writes warnings, history, link -/

@[simp] theorem State.fire_pending (s : State) (g : Nat) (f : Firing) : (s.fire g f).pending = s.pending := by
  unfold State.fire; dsimp only; split
  · rfl
  · unfold State.placeWarning; repeat' split
    all_goals simp

@[simp] theorem State.fire_params (s : State) (g : Nat) (f : Firing) : (s.fire g f).params = s.params := by
  unfold State.fire; dsimp only; split
  · rfl
  · unfold State.placeWarning; repeat' split
    all_goals simp

@[simp] theorem State.fire_gantries (s : State) (g : Nat) (f : Firing) : (s.fire g f).gantries = s.gantries := by
  unfold State.fire; dsimp only; split
  · rfl
  · unfold State.placeWarning; repeat' split
    all_goals simp

@[simp] theorem State.fire_speeds (s : State) (g : Nat) (f : Firing) : (s.fire g f).speeds = s.speeds := by
  unfold State.fire; dsimp only; split
  · rfl
  · unfold State.placeWarning; repeat' split
    all_goals simp

@[simp] theorem State.fire_bands (s : State) (g : Nat) (f : Firing) : (s.fire g f).bands = s.bands := by
  unfold State.fire; dsimp only; split
  · rfl
  · unfold State.placeWarning; repeat' split
    all_goals simp

@[simp] theorem State.fire_operating (s : State) (g : Nat) (f : Firing) : (s.fire g f).operating = s.operating := by
  unfold State.fire; dsimp only; split
  · rfl
  · unfold State.placeWarning; repeat' split
    all_goals simp

@[simp] theorem State.fire_clock (s : State) (g : Nat) (f : Firing) : (s.fire g f).clock = s.clock := by
  unfold State.fire; dsimp only; split
  · rfl
  · unfold State.placeWarning; repeat' split
    all_goals simp

@[simp] theorem State.fire_planTimer (s : State) (g : Nat) (f : Firing) : (s.fire g f).planTimer = s.planTimer := by
  unfold State.fire; dsimp only; split
  · rfl
  · unfold State.placeWarning; repeat' split
    all_goals simp

@[simp] theorem State.fire_operatorCap (s : State) (g : Nat) (f : Firing) : (s.fire g f).operatorCap = s.operatorCap := by
  unfold State.fire; dsimp only; split
  · rfl
  · unfold State.placeWarning; repeat' split
    all_goals simp

@[simp] theorem State.fire_resetCause (s : State) (g : Nat) (f : Firing) : (s.fire g f).resetCause = s.resetCause := by
  unfold State.fire; dsimp only; split
  · rfl
  · unfold State.placeWarning; repeat' split
    all_goals simp

@[simp] theorem State.fire_nrstLow (s : State) (g : Nat) (f : Firing) : (s.fire g f).nrstLow = s.nrstLow := by
  unfold State.fire; dsimp only; split
  · rfl
  · unfold State.placeWarning; repeat' split
    all_goals simp

@[simp] theorem State.fire_sense (s : State) (g : Nat) (f : Firing) : (s.fire g f).sense = s.sense := by
  unfold State.fire; dsimp only; split
  · rfl
  · unfold State.placeWarning; repeat' split
    all_goals simp

@[simp] theorem State.fire_traffic (s : State) (g : Nat) (f : Firing) : (s.fire g f).traffic = s.traffic := by
  unfold State.fire; dsimp only; split
  · rfl
  · unfold State.placeWarning; repeat' split
    all_goals simp

@[simp] theorem State.fire_programs (s : State) (g : Nat) (f : Firing) : (s.fire g f).programs = s.programs := by
  unfold State.fire; dsimp only; split
  · rfl
  · unfold State.placeWarning; repeat' split
    all_goals simp

@[simp] theorem State.fire_insts (s : State) (g : Nat) (f : Firing) : (s.fire g f).insts = s.insts := by
  unfold State.fire; dsimp only; split
  · rfl
  · unfold State.placeWarning; repeat' split
    all_goals simp

@[simp] theorem State.fire_plan (s : State) (g : Nat) (f : Firing) : (s.fire g f).plan = s.plan := by
  unfold State.fire; dsimp only; split
  · rfl
  · unfold State.placeWarning; repeat' split
    all_goals simp

@[simp] theorem State.fire_closures (s : State) (g : Nat) (f : Firing) : (s.fire g f).closures = s.closures := by
  unfold State.fire; dsimp only; split
  · rfl
  · unfold State.placeWarning; repeat' split
    all_goals simp

@[simp] theorem State.fire_arrowMap (s : State) (g : Nat) (f : Firing) : (s.fire g f).arrowMap = s.arrowMap := by
  unfold State.fire; dsimp only; split
  · rfl
  · unfold State.placeWarning; repeat' split
    all_goals simp

@[simp] theorem State.fire_crossMap (s : State) (g : Nat) (f : Firing) : (s.fire g f).crossMap = s.crossMap := by
  unfold State.fire; dsimp only; split
  · rfl
  · unfold State.placeWarning; repeat' split
    all_goals simp

@[simp] theorem State.fire_aspects (s : State) (g : Nat) (f : Firing) : (s.fire g f).aspects = s.aspects := by
  unfold State.fire; dsimp only; split
  · rfl
  · unfold State.placeWarning; repeat' split
    all_goals simp

@[simp] theorem State.fire_legends (s : State) (g : Nat) (f : Firing) : (s.fire g f).legends = s.legends := by
  unfold State.fire; dsimp only; split
  · rfl
  · unfold State.placeWarning; repeat' split
    all_goals simp

@[simp] theorem State.fire_lines (s : State) (g : Nat) (f : Firing) : (s.fire g f).lines = s.lines := by
  unfold State.fire; dsimp only; split
  · rfl
  · unfold State.placeWarning; repeat' split
    all_goals simp

@[simp] theorem State.fire_panels (s : State) (g : Nat) (f : Firing) : (s.fire g f).panels = s.panels := by
  unfold State.fire; dsimp only; split
  · rfl
  · unfold State.placeWarning; repeat' split
    all_goals simp

/-! ### evaluateGantry writes insts, warnings, history, link -/

theorem State.fires_pending (g : Nat) (fs : List Firing) : ∀ s : State, (fs.foldl (fun st f => st.fire g f) s).pending = s.pending := by
  induction fs with
  | nil => intro s; rfl
  | cons f fs ih => intro s; rw [List.foldl_cons, ih, State.fire_pending]

@[simp] theorem State.evaluateGantry_pending (s : State) (g : Nat) : (s.evaluateGantry g).pending = s.pending := by
  unfold State.evaluateGantry; dsimp only
  rw [State.updateHold_pending, State.announceWarning_pending, State.fires_pending]

theorem State.fires_params (g : Nat) (fs : List Firing) : ∀ s : State, (fs.foldl (fun st f => st.fire g f) s).params = s.params := by
  induction fs with
  | nil => intro s; rfl
  | cons f fs ih => intro s; rw [List.foldl_cons, ih, State.fire_params]

@[simp] theorem State.evaluateGantry_params (s : State) (g : Nat) : (s.evaluateGantry g).params = s.params := by
  unfold State.evaluateGantry; dsimp only
  rw [State.updateHold_params, State.announceWarning_params, State.fires_params]

theorem State.fires_gantries (g : Nat) (fs : List Firing) : ∀ s : State, (fs.foldl (fun st f => st.fire g f) s).gantries = s.gantries := by
  induction fs with
  | nil => intro s; rfl
  | cons f fs ih => intro s; rw [List.foldl_cons, ih, State.fire_gantries]

@[simp] theorem State.evaluateGantry_gantries (s : State) (g : Nat) : (s.evaluateGantry g).gantries = s.gantries := by
  unfold State.evaluateGantry; dsimp only
  rw [State.updateHold_gantries, State.announceWarning_gantries, State.fires_gantries]

theorem State.fires_speeds (g : Nat) (fs : List Firing) : ∀ s : State, (fs.foldl (fun st f => st.fire g f) s).speeds = s.speeds := by
  induction fs with
  | nil => intro s; rfl
  | cons f fs ih => intro s; rw [List.foldl_cons, ih, State.fire_speeds]

@[simp] theorem State.evaluateGantry_speeds (s : State) (g : Nat) : (s.evaluateGantry g).speeds = s.speeds := by
  unfold State.evaluateGantry; dsimp only
  rw [State.updateHold_speeds, State.announceWarning_speeds, State.fires_speeds]

theorem State.fires_bands (g : Nat) (fs : List Firing) : ∀ s : State, (fs.foldl (fun st f => st.fire g f) s).bands = s.bands := by
  induction fs with
  | nil => intro s; rfl
  | cons f fs ih => intro s; rw [List.foldl_cons, ih, State.fire_bands]

@[simp] theorem State.evaluateGantry_bands (s : State) (g : Nat) : (s.evaluateGantry g).bands = s.bands := by
  unfold State.evaluateGantry; dsimp only
  rw [State.updateHold_bands, State.announceWarning_bands, State.fires_bands]

theorem State.fires_operating (g : Nat) (fs : List Firing) : ∀ s : State, (fs.foldl (fun st f => st.fire g f) s).operating = s.operating := by
  induction fs with
  | nil => intro s; rfl
  | cons f fs ih => intro s; rw [List.foldl_cons, ih, State.fire_operating]

@[simp] theorem State.evaluateGantry_operating (s : State) (g : Nat) : (s.evaluateGantry g).operating = s.operating := by
  unfold State.evaluateGantry; dsimp only
  rw [State.updateHold_operating, State.announceWarning_operating, State.fires_operating]

theorem State.fires_clock (g : Nat) (fs : List Firing) : ∀ s : State, (fs.foldl (fun st f => st.fire g f) s).clock = s.clock := by
  induction fs with
  | nil => intro s; rfl
  | cons f fs ih => intro s; rw [List.foldl_cons, ih, State.fire_clock]

@[simp] theorem State.evaluateGantry_clock (s : State) (g : Nat) : (s.evaluateGantry g).clock = s.clock := by
  unfold State.evaluateGantry; dsimp only
  rw [State.updateHold_clock, State.announceWarning_clock, State.fires_clock]

theorem State.fires_planTimer (g : Nat) (fs : List Firing) : ∀ s : State, (fs.foldl (fun st f => st.fire g f) s).planTimer = s.planTimer := by
  induction fs with
  | nil => intro s; rfl
  | cons f fs ih => intro s; rw [List.foldl_cons, ih, State.fire_planTimer]

@[simp] theorem State.evaluateGantry_planTimer (s : State) (g : Nat) : (s.evaluateGantry g).planTimer = s.planTimer := by
  unfold State.evaluateGantry; dsimp only
  rw [State.updateHold_planTimer, State.announceWarning_planTimer, State.fires_planTimer]

theorem State.fires_operatorCap (g : Nat) (fs : List Firing) : ∀ s : State, (fs.foldl (fun st f => st.fire g f) s).operatorCap = s.operatorCap := by
  induction fs with
  | nil => intro s; rfl
  | cons f fs ih => intro s; rw [List.foldl_cons, ih, State.fire_operatorCap]

@[simp] theorem State.evaluateGantry_operatorCap (s : State) (g : Nat) : (s.evaluateGantry g).operatorCap = s.operatorCap := by
  unfold State.evaluateGantry; dsimp only
  rw [State.updateHold_operatorCap, State.announceWarning_operatorCap, State.fires_operatorCap]

theorem State.fires_resetCause (g : Nat) (fs : List Firing) : ∀ s : State, (fs.foldl (fun st f => st.fire g f) s).resetCause = s.resetCause := by
  induction fs with
  | nil => intro s; rfl
  | cons f fs ih => intro s; rw [List.foldl_cons, ih, State.fire_resetCause]

@[simp] theorem State.evaluateGantry_resetCause (s : State) (g : Nat) : (s.evaluateGantry g).resetCause = s.resetCause := by
  unfold State.evaluateGantry; dsimp only
  rw [State.updateHold_resetCause, State.announceWarning_resetCause, State.fires_resetCause]

theorem State.fires_nrstLow (g : Nat) (fs : List Firing) : ∀ s : State, (fs.foldl (fun st f => st.fire g f) s).nrstLow = s.nrstLow := by
  induction fs with
  | nil => intro s; rfl
  | cons f fs ih => intro s; rw [List.foldl_cons, ih, State.fire_nrstLow]

@[simp] theorem State.evaluateGantry_nrstLow (s : State) (g : Nat) : (s.evaluateGantry g).nrstLow = s.nrstLow := by
  unfold State.evaluateGantry; dsimp only
  rw [State.updateHold_nrstLow, State.announceWarning_nrstLow, State.fires_nrstLow]

theorem State.fires_sense (g : Nat) (fs : List Firing) : ∀ s : State, (fs.foldl (fun st f => st.fire g f) s).sense = s.sense := by
  induction fs with
  | nil => intro s; rfl
  | cons f fs ih => intro s; rw [List.foldl_cons, ih, State.fire_sense]

@[simp] theorem State.evaluateGantry_sense (s : State) (g : Nat) : (s.evaluateGantry g).sense = s.sense := by
  unfold State.evaluateGantry; dsimp only
  rw [State.updateHold_sense, State.announceWarning_sense, State.fires_sense]

theorem State.fires_traffic (g : Nat) (fs : List Firing) : ∀ s : State, (fs.foldl (fun st f => st.fire g f) s).traffic = s.traffic := by
  induction fs with
  | nil => intro s; rfl
  | cons f fs ih => intro s; rw [List.foldl_cons, ih, State.fire_traffic]

@[simp] theorem State.evaluateGantry_traffic (s : State) (g : Nat) : (s.evaluateGantry g).traffic = s.traffic := by
  unfold State.evaluateGantry; dsimp only
  rw [State.updateHold_traffic, State.announceWarning_traffic, State.fires_traffic]

theorem State.fires_programs (g : Nat) (fs : List Firing) : ∀ s : State, (fs.foldl (fun st f => st.fire g f) s).programs = s.programs := by
  induction fs with
  | nil => intro s; rfl
  | cons f fs ih => intro s; rw [List.foldl_cons, ih, State.fire_programs]

@[simp] theorem State.evaluateGantry_programs (s : State) (g : Nat) : (s.evaluateGantry g).programs = s.programs := by
  unfold State.evaluateGantry; dsimp only
  rw [State.updateHold_programs, State.announceWarning_programs, State.fires_programs]

theorem State.fires_plan (g : Nat) (fs : List Firing) : ∀ s : State, (fs.foldl (fun st f => st.fire g f) s).plan = s.plan := by
  induction fs with
  | nil => intro s; rfl
  | cons f fs ih => intro s; rw [List.foldl_cons, ih, State.fire_plan]

@[simp] theorem State.evaluateGantry_plan (s : State) (g : Nat) : (s.evaluateGantry g).plan = s.plan := by
  unfold State.evaluateGantry; dsimp only
  rw [State.updateHold_plan, State.announceWarning_plan, State.fires_plan]

theorem State.fires_closures (g : Nat) (fs : List Firing) : ∀ s : State, (fs.foldl (fun st f => st.fire g f) s).closures = s.closures := by
  induction fs with
  | nil => intro s; rfl
  | cons f fs ih => intro s; rw [List.foldl_cons, ih, State.fire_closures]

@[simp] theorem State.evaluateGantry_closures (s : State) (g : Nat) : (s.evaluateGantry g).closures = s.closures := by
  unfold State.evaluateGantry; dsimp only
  rw [State.updateHold_closures, State.announceWarning_closures, State.fires_closures]

theorem State.fires_arrowMap (g : Nat) (fs : List Firing) : ∀ s : State, (fs.foldl (fun st f => st.fire g f) s).arrowMap = s.arrowMap := by
  induction fs with
  | nil => intro s; rfl
  | cons f fs ih => intro s; rw [List.foldl_cons, ih, State.fire_arrowMap]

@[simp] theorem State.evaluateGantry_arrowMap (s : State) (g : Nat) : (s.evaluateGantry g).arrowMap = s.arrowMap := by
  unfold State.evaluateGantry; dsimp only
  rw [State.updateHold_arrowMap, State.announceWarning_arrowMap, State.fires_arrowMap]

theorem State.fires_crossMap (g : Nat) (fs : List Firing) : ∀ s : State, (fs.foldl (fun st f => st.fire g f) s).crossMap = s.crossMap := by
  induction fs with
  | nil => intro s; rfl
  | cons f fs ih => intro s; rw [List.foldl_cons, ih, State.fire_crossMap]

@[simp] theorem State.evaluateGantry_crossMap (s : State) (g : Nat) : (s.evaluateGantry g).crossMap = s.crossMap := by
  unfold State.evaluateGantry; dsimp only
  rw [State.updateHold_crossMap, State.announceWarning_crossMap, State.fires_crossMap]

theorem State.fires_aspects (g : Nat) (fs : List Firing) : ∀ s : State, (fs.foldl (fun st f => st.fire g f) s).aspects = s.aspects := by
  induction fs with
  | nil => intro s; rfl
  | cons f fs ih => intro s; rw [List.foldl_cons, ih, State.fire_aspects]

@[simp] theorem State.evaluateGantry_aspects (s : State) (g : Nat) : (s.evaluateGantry g).aspects = s.aspects := by
  unfold State.evaluateGantry; dsimp only
  rw [State.updateHold_aspects, State.announceWarning_aspects, State.fires_aspects]

theorem State.fires_legends (g : Nat) (fs : List Firing) : ∀ s : State, (fs.foldl (fun st f => st.fire g f) s).legends = s.legends := by
  induction fs with
  | nil => intro s; rfl
  | cons f fs ih => intro s; rw [List.foldl_cons, ih, State.fire_legends]

@[simp] theorem State.evaluateGantry_legends (s : State) (g : Nat) : (s.evaluateGantry g).legends = s.legends := by
  unfold State.evaluateGantry; dsimp only
  rw [State.updateHold_legends, State.announceWarning_legends, State.fires_legends]

theorem State.fires_lines (g : Nat) (fs : List Firing) : ∀ s : State, (fs.foldl (fun st f => st.fire g f) s).lines = s.lines := by
  induction fs with
  | nil => intro s; rfl
  | cons f fs ih => intro s; rw [List.foldl_cons, ih, State.fire_lines]

@[simp] theorem State.evaluateGantry_lines (s : State) (g : Nat) : (s.evaluateGantry g).lines = s.lines := by
  unfold State.evaluateGantry; dsimp only
  rw [State.updateHold_lines, State.announceWarning_lines, State.fires_lines]

theorem State.fires_panels (g : Nat) (fs : List Firing) : ∀ s : State, (fs.foldl (fun st f => st.fire g f) s).panels = s.panels := by
  induction fs with
  | nil => intro s; rfl
  | cons f fs ih => intro s; rw [List.foldl_cons, ih, State.fire_panels]

@[simp] theorem State.evaluateGantry_panels (s : State) (g : Nat) : (s.evaluateGantry g).panels = s.panels := by
  unfold State.evaluateGantry; dsimp only
  rw [State.updateHold_panels, State.announceWarning_panels, State.fires_panels]

/-! ### recordTraffic writes traffic -/

@[simp] theorem State.recordTraffic_pending (s : State) (b : Bytes) : (s.recordTraffic b).pending = s.pending := rfl

@[simp] theorem State.recordTraffic_params (s : State) (b : Bytes) : (s.recordTraffic b).params = s.params := rfl

@[simp] theorem State.recordTraffic_gantries (s : State) (b : Bytes) : (s.recordTraffic b).gantries = s.gantries := rfl

@[simp] theorem State.recordTraffic_speeds (s : State) (b : Bytes) : (s.recordTraffic b).speeds = s.speeds := rfl

@[simp] theorem State.recordTraffic_bands (s : State) (b : Bytes) : (s.recordTraffic b).bands = s.bands := rfl

@[simp] theorem State.recordTraffic_operating (s : State) (b : Bytes) : (s.recordTraffic b).operating = s.operating := rfl

@[simp] theorem State.recordTraffic_clock (s : State) (b : Bytes) : (s.recordTraffic b).clock = s.clock := rfl

@[simp] theorem State.recordTraffic_planTimer (s : State) (b : Bytes) : (s.recordTraffic b).planTimer = s.planTimer := rfl

@[simp] theorem State.recordTraffic_operatorCap (s : State) (b : Bytes) : (s.recordTraffic b).operatorCap = s.operatorCap := rfl

@[simp] theorem State.recordTraffic_resetCause (s : State) (b : Bytes) : (s.recordTraffic b).resetCause = s.resetCause := rfl

@[simp] theorem State.recordTraffic_nrstLow (s : State) (b : Bytes) : (s.recordTraffic b).nrstLow = s.nrstLow := rfl

@[simp] theorem State.recordTraffic_sense (s : State) (b : Bytes) : (s.recordTraffic b).sense = s.sense := rfl

@[simp] theorem State.recordTraffic_programs (s : State) (b : Bytes) : (s.recordTraffic b).programs = s.programs := rfl

@[simp] theorem State.recordTraffic_insts (s : State) (b : Bytes) : (s.recordTraffic b).insts = s.insts := rfl

@[simp] theorem State.recordTraffic_warnings (s : State) (b : Bytes) : (s.recordTraffic b).warnings = s.warnings := rfl

@[simp] theorem State.recordTraffic_plan (s : State) (b : Bytes) : (s.recordTraffic b).plan = s.plan := rfl

@[simp] theorem State.recordTraffic_closures (s : State) (b : Bytes) : (s.recordTraffic b).closures = s.closures := rfl

@[simp] theorem State.recordTraffic_arrowMap (s : State) (b : Bytes) : (s.recordTraffic b).arrowMap = s.arrowMap := rfl

@[simp] theorem State.recordTraffic_crossMap (s : State) (b : Bytes) : (s.recordTraffic b).crossMap = s.crossMap := rfl

@[simp] theorem State.recordTraffic_aspects (s : State) (b : Bytes) : (s.recordTraffic b).aspects = s.aspects := rfl

@[simp] theorem State.recordTraffic_legends (s : State) (b : Bytes) : (s.recordTraffic b).legends = s.legends := rfl

@[simp] theorem State.recordTraffic_lines (s : State) (b : Bytes) : (s.recordTraffic b).lines = s.lines := rfl

@[simp] theorem State.recordTraffic_panels (s : State) (b : Bytes) : (s.recordTraffic b).panels = s.panels := rfl

@[simp] theorem State.recordTraffic_history (s : State) (b : Bytes) : (s.recordTraffic b).history = s.history := rfl

@[simp] theorem State.recordTraffic_link (s : State) (b : Bytes) : (s.recordTraffic b).link = s.link := rfl

/-! ### applyDetector writes traffic, insts, warnings, history, link, plan, aspects, lines, closures -/

@[simp] theorem State.applyDetector_pending (s : State) (b : Bytes) : (s.applyDetector b).pending = s.pending := by unfold State.applyDetector; dsimp only; split <;> simp

@[simp] theorem State.applyDetector_params (s : State) (b : Bytes) : (s.applyDetector b).params = s.params := by unfold State.applyDetector; dsimp only; split <;> simp

@[simp] theorem State.applyDetector_gantries (s : State) (b : Bytes) : (s.applyDetector b).gantries = s.gantries := by unfold State.applyDetector; dsimp only; split <;> simp

@[simp] theorem State.applyDetector_speeds (s : State) (b : Bytes) : (s.applyDetector b).speeds = s.speeds := by unfold State.applyDetector; dsimp only; split <;> simp

@[simp] theorem State.applyDetector_bands (s : State) (b : Bytes) : (s.applyDetector b).bands = s.bands := by unfold State.applyDetector; dsimp only; split <;> simp

@[simp] theorem State.applyDetector_operating (s : State) (b : Bytes) : (s.applyDetector b).operating = s.operating := by unfold State.applyDetector; dsimp only; split <;> simp

@[simp] theorem State.applyDetector_clock (s : State) (b : Bytes) : (s.applyDetector b).clock = s.clock := by unfold State.applyDetector; dsimp only; split <;> simp

@[simp] theorem State.applyDetector_planTimer (s : State) (b : Bytes) : (s.applyDetector b).planTimer = s.planTimer := by unfold State.applyDetector; dsimp only; split <;> simp

@[simp] theorem State.applyDetector_operatorCap (s : State) (b : Bytes) : (s.applyDetector b).operatorCap = s.operatorCap := by unfold State.applyDetector; dsimp only; split <;> simp

@[simp] theorem State.applyDetector_resetCause (s : State) (b : Bytes) : (s.applyDetector b).resetCause = s.resetCause := by unfold State.applyDetector; dsimp only; split <;> simp

@[simp] theorem State.applyDetector_nrstLow (s : State) (b : Bytes) : (s.applyDetector b).nrstLow = s.nrstLow := by unfold State.applyDetector; dsimp only; split <;> simp

@[simp] theorem State.applyDetector_sense (s : State) (b : Bytes) : (s.applyDetector b).sense = s.sense := by unfold State.applyDetector; dsimp only; split <;> simp

@[simp] theorem State.applyDetector_programs (s : State) (b : Bytes) : (s.applyDetector b).programs = s.programs := by unfold State.applyDetector; dsimp only; split <;> simp

@[simp] theorem State.applyDetector_arrowMap (s : State) (b : Bytes) : (s.applyDetector b).arrowMap = s.arrowMap := by unfold State.applyDetector; dsimp only; split <;> simp

@[simp] theorem State.applyDetector_crossMap (s : State) (b : Bytes) : (s.applyDetector b).crossMap = s.crossMap := by unfold State.applyDetector; dsimp only; split <;> simp

@[simp] theorem State.applyDetector_legends (s : State) (b : Bytes) : (s.applyDetector b).legends = s.legends := by unfold State.applyDetector; dsimp only; split <;> simp

@[simp] theorem State.applyDetector_panels (s : State) (b : Bytes) : (s.applyDetector b).panels = s.panels := by unfold State.applyDetector; dsimp only; split <;> simp

/-! ### createClosure writes closures, link -/

@[simp] theorem State.createClosure_pending (s : State) (c : Closure) : (s.createClosure c).pending = s.pending := rfl

@[simp] theorem State.createClosure_params (s : State) (c : Closure) : (s.createClosure c).params = s.params := rfl

@[simp] theorem State.createClosure_gantries (s : State) (c : Closure) : (s.createClosure c).gantries = s.gantries := rfl

@[simp] theorem State.createClosure_speeds (s : State) (c : Closure) : (s.createClosure c).speeds = s.speeds := rfl

@[simp] theorem State.createClosure_bands (s : State) (c : Closure) : (s.createClosure c).bands = s.bands := rfl

@[simp] theorem State.createClosure_operating (s : State) (c : Closure) : (s.createClosure c).operating = s.operating := rfl

@[simp] theorem State.createClosure_clock (s : State) (c : Closure) : (s.createClosure c).clock = s.clock := rfl

@[simp] theorem State.createClosure_planTimer (s : State) (c : Closure) : (s.createClosure c).planTimer = s.planTimer := rfl

@[simp] theorem State.createClosure_operatorCap (s : State) (c : Closure) : (s.createClosure c).operatorCap = s.operatorCap := rfl

@[simp] theorem State.createClosure_resetCause (s : State) (c : Closure) : (s.createClosure c).resetCause = s.resetCause := rfl

@[simp] theorem State.createClosure_nrstLow (s : State) (c : Closure) : (s.createClosure c).nrstLow = s.nrstLow := rfl

@[simp] theorem State.createClosure_sense (s : State) (c : Closure) : (s.createClosure c).sense = s.sense := rfl

@[simp] theorem State.createClosure_traffic (s : State) (c : Closure) : (s.createClosure c).traffic = s.traffic := rfl

@[simp] theorem State.createClosure_programs (s : State) (c : Closure) : (s.createClosure c).programs = s.programs := rfl

@[simp] theorem State.createClosure_insts (s : State) (c : Closure) : (s.createClosure c).insts = s.insts := rfl

@[simp] theorem State.createClosure_warnings (s : State) (c : Closure) : (s.createClosure c).warnings = s.warnings := rfl

@[simp] theorem State.createClosure_plan (s : State) (c : Closure) : (s.createClosure c).plan = s.plan := rfl

@[simp] theorem State.createClosure_arrowMap (s : State) (c : Closure) : (s.createClosure c).arrowMap = s.arrowMap := rfl

@[simp] theorem State.createClosure_crossMap (s : State) (c : Closure) : (s.createClosure c).crossMap = s.crossMap := rfl

@[simp] theorem State.createClosure_aspects (s : State) (c : Closure) : (s.createClosure c).aspects = s.aspects := rfl

@[simp] theorem State.createClosure_legends (s : State) (c : Closure) : (s.createClosure c).legends = s.legends := rfl

@[simp] theorem State.createClosure_lines (s : State) (c : Closure) : (s.createClosure c).lines = s.lines := rfl

@[simp] theorem State.createClosure_panels (s : State) (c : Closure) : (s.createClosure c).panels = s.panels := rfl

@[simp] theorem State.createClosure_history (s : State) (c : Closure) : (s.createClosure c).history = s.history := rfl

/-! ### endRequested writes closures, link -/

@[simp] theorem State.endRequested_pending (s : State) (c : Closure) : (s.endRequested c).pending = s.pending := rfl

@[simp] theorem State.endRequested_params (s : State) (c : Closure) : (s.endRequested c).params = s.params := rfl

@[simp] theorem State.endRequested_gantries (s : State) (c : Closure) : (s.endRequested c).gantries = s.gantries := rfl

@[simp] theorem State.endRequested_speeds (s : State) (c : Closure) : (s.endRequested c).speeds = s.speeds := rfl

@[simp] theorem State.endRequested_bands (s : State) (c : Closure) : (s.endRequested c).bands = s.bands := rfl

@[simp] theorem State.endRequested_operating (s : State) (c : Closure) : (s.endRequested c).operating = s.operating := rfl

@[simp] theorem State.endRequested_clock (s : State) (c : Closure) : (s.endRequested c).clock = s.clock := rfl

@[simp] theorem State.endRequested_planTimer (s : State) (c : Closure) : (s.endRequested c).planTimer = s.planTimer := rfl

@[simp] theorem State.endRequested_operatorCap (s : State) (c : Closure) : (s.endRequested c).operatorCap = s.operatorCap := rfl

@[simp] theorem State.endRequested_resetCause (s : State) (c : Closure) : (s.endRequested c).resetCause = s.resetCause := rfl

@[simp] theorem State.endRequested_nrstLow (s : State) (c : Closure) : (s.endRequested c).nrstLow = s.nrstLow := rfl

@[simp] theorem State.endRequested_sense (s : State) (c : Closure) : (s.endRequested c).sense = s.sense := rfl

@[simp] theorem State.endRequested_traffic (s : State) (c : Closure) : (s.endRequested c).traffic = s.traffic := rfl

@[simp] theorem State.endRequested_programs (s : State) (c : Closure) : (s.endRequested c).programs = s.programs := rfl

@[simp] theorem State.endRequested_insts (s : State) (c : Closure) : (s.endRequested c).insts = s.insts := rfl

@[simp] theorem State.endRequested_warnings (s : State) (c : Closure) : (s.endRequested c).warnings = s.warnings := rfl

@[simp] theorem State.endRequested_plan (s : State) (c : Closure) : (s.endRequested c).plan = s.plan := rfl

@[simp] theorem State.endRequested_arrowMap (s : State) (c : Closure) : (s.endRequested c).arrowMap = s.arrowMap := rfl

@[simp] theorem State.endRequested_crossMap (s : State) (c : Closure) : (s.endRequested c).crossMap = s.crossMap := rfl

@[simp] theorem State.endRequested_aspects (s : State) (c : Closure) : (s.endRequested c).aspects = s.aspects := rfl

@[simp] theorem State.endRequested_legends (s : State) (c : Closure) : (s.endRequested c).legends = s.legends := rfl

@[simp] theorem State.endRequested_lines (s : State) (c : Closure) : (s.endRequested c).lines = s.lines := rfl

@[simp] theorem State.endRequested_panels (s : State) (c : Closure) : (s.endRequested c).panels = s.panels := rfl

@[simp] theorem State.endRequested_history (s : State) (c : Closure) : (s.endRequested c).history = s.history := rfl

/-! ### enterReleasing writes closures, link -/

@[simp] theorem State.enterReleasing_pending (s : State) (c : Closure) : (s.enterReleasing c).pending = s.pending := rfl

@[simp] theorem State.enterReleasing_params (s : State) (c : Closure) : (s.enterReleasing c).params = s.params := rfl

@[simp] theorem State.enterReleasing_gantries (s : State) (c : Closure) : (s.enterReleasing c).gantries = s.gantries := rfl

@[simp] theorem State.enterReleasing_speeds (s : State) (c : Closure) : (s.enterReleasing c).speeds = s.speeds := rfl

@[simp] theorem State.enterReleasing_bands (s : State) (c : Closure) : (s.enterReleasing c).bands = s.bands := rfl

@[simp] theorem State.enterReleasing_operating (s : State) (c : Closure) : (s.enterReleasing c).operating = s.operating := rfl

@[simp] theorem State.enterReleasing_clock (s : State) (c : Closure) : (s.enterReleasing c).clock = s.clock := rfl

@[simp] theorem State.enterReleasing_planTimer (s : State) (c : Closure) : (s.enterReleasing c).planTimer = s.planTimer := rfl

@[simp] theorem State.enterReleasing_operatorCap (s : State) (c : Closure) : (s.enterReleasing c).operatorCap = s.operatorCap := rfl

@[simp] theorem State.enterReleasing_resetCause (s : State) (c : Closure) : (s.enterReleasing c).resetCause = s.resetCause := rfl

@[simp] theorem State.enterReleasing_nrstLow (s : State) (c : Closure) : (s.enterReleasing c).nrstLow = s.nrstLow := rfl

@[simp] theorem State.enterReleasing_sense (s : State) (c : Closure) : (s.enterReleasing c).sense = s.sense := rfl

@[simp] theorem State.enterReleasing_traffic (s : State) (c : Closure) : (s.enterReleasing c).traffic = s.traffic := rfl

@[simp] theorem State.enterReleasing_programs (s : State) (c : Closure) : (s.enterReleasing c).programs = s.programs := rfl

@[simp] theorem State.enterReleasing_insts (s : State) (c : Closure) : (s.enterReleasing c).insts = s.insts := rfl

@[simp] theorem State.enterReleasing_warnings (s : State) (c : Closure) : (s.enterReleasing c).warnings = s.warnings := rfl

@[simp] theorem State.enterReleasing_plan (s : State) (c : Closure) : (s.enterReleasing c).plan = s.plan := rfl

@[simp] theorem State.enterReleasing_arrowMap (s : State) (c : Closure) : (s.enterReleasing c).arrowMap = s.arrowMap := rfl

@[simp] theorem State.enterReleasing_crossMap (s : State) (c : Closure) : (s.enterReleasing c).crossMap = s.crossMap := rfl

@[simp] theorem State.enterReleasing_aspects (s : State) (c : Closure) : (s.enterReleasing c).aspects = s.aspects := rfl

@[simp] theorem State.enterReleasing_legends (s : State) (c : Closure) : (s.enterReleasing c).legends = s.legends := rfl

@[simp] theorem State.enterReleasing_lines (s : State) (c : Closure) : (s.enterReleasing c).lines = s.lines := rfl

@[simp] theorem State.enterReleasing_panels (s : State) (c : Closure) : (s.enterReleasing c).panels = s.panels := rfl

@[simp] theorem State.enterReleasing_history (s : State) (c : Closure) : (s.enterReleasing c).history = s.history := rfl

/-! ### closeDue writes closures, link -/

@[simp] theorem State.closeDue_pending (s : State) : s.closeDue.pending = s.pending := rfl

@[simp] theorem State.closeDue_params (s : State) : s.closeDue.params = s.params := rfl

@[simp] theorem State.closeDue_gantries (s : State) : s.closeDue.gantries = s.gantries := rfl

@[simp] theorem State.closeDue_speeds (s : State) : s.closeDue.speeds = s.speeds := rfl

@[simp] theorem State.closeDue_bands (s : State) : s.closeDue.bands = s.bands := rfl

@[simp] theorem State.closeDue_operating (s : State) : s.closeDue.operating = s.operating := rfl

@[simp] theorem State.closeDue_clock (s : State) : s.closeDue.clock = s.clock := rfl

@[simp] theorem State.closeDue_planTimer (s : State) : s.closeDue.planTimer = s.planTimer := rfl

@[simp] theorem State.closeDue_operatorCap (s : State) : s.closeDue.operatorCap = s.operatorCap := rfl

@[simp] theorem State.closeDue_resetCause (s : State) : s.closeDue.resetCause = s.resetCause := rfl

@[simp] theorem State.closeDue_nrstLow (s : State) : s.closeDue.nrstLow = s.nrstLow := rfl

@[simp] theorem State.closeDue_sense (s : State) : s.closeDue.sense = s.sense := rfl

@[simp] theorem State.closeDue_traffic (s : State) : s.closeDue.traffic = s.traffic := rfl

@[simp] theorem State.closeDue_programs (s : State) : s.closeDue.programs = s.programs := rfl

@[simp] theorem State.closeDue_insts (s : State) : s.closeDue.insts = s.insts := rfl

@[simp] theorem State.closeDue_warnings (s : State) : s.closeDue.warnings = s.warnings := rfl

@[simp] theorem State.closeDue_plan (s : State) : s.closeDue.plan = s.plan := rfl

@[simp] theorem State.closeDue_arrowMap (s : State) : s.closeDue.arrowMap = s.arrowMap := rfl

@[simp] theorem State.closeDue_crossMap (s : State) : s.closeDue.crossMap = s.crossMap := rfl

@[simp] theorem State.closeDue_aspects (s : State) : s.closeDue.aspects = s.aspects := rfl

@[simp] theorem State.closeDue_legends (s : State) : s.closeDue.legends = s.legends := rfl

@[simp] theorem State.closeDue_lines (s : State) : s.closeDue.lines = s.lines := rfl

@[simp] theorem State.closeDue_panels (s : State) : s.closeDue.panels = s.panels := rfl

@[simp] theorem State.closeDue_history (s : State) : s.closeDue.history = s.history := rfl

/-! ### markSlow writes closures, link -/

@[simp] theorem State.markSlow_pending (s : State) : s.markSlow.pending = s.pending := rfl

@[simp] theorem State.markSlow_params (s : State) : s.markSlow.params = s.params := rfl

@[simp] theorem State.markSlow_gantries (s : State) : s.markSlow.gantries = s.gantries := rfl

@[simp] theorem State.markSlow_speeds (s : State) : s.markSlow.speeds = s.speeds := rfl

@[simp] theorem State.markSlow_bands (s : State) : s.markSlow.bands = s.bands := rfl

@[simp] theorem State.markSlow_operating (s : State) : s.markSlow.operating = s.operating := rfl

@[simp] theorem State.markSlow_clock (s : State) : s.markSlow.clock = s.clock := rfl

@[simp] theorem State.markSlow_planTimer (s : State) : s.markSlow.planTimer = s.planTimer := rfl

@[simp] theorem State.markSlow_operatorCap (s : State) : s.markSlow.operatorCap = s.operatorCap := rfl

@[simp] theorem State.markSlow_resetCause (s : State) : s.markSlow.resetCause = s.resetCause := rfl

@[simp] theorem State.markSlow_nrstLow (s : State) : s.markSlow.nrstLow = s.nrstLow := rfl

@[simp] theorem State.markSlow_sense (s : State) : s.markSlow.sense = s.sense := rfl

@[simp] theorem State.markSlow_traffic (s : State) : s.markSlow.traffic = s.traffic := rfl

@[simp] theorem State.markSlow_programs (s : State) : s.markSlow.programs = s.programs := rfl

@[simp] theorem State.markSlow_insts (s : State) : s.markSlow.insts = s.insts := rfl

@[simp] theorem State.markSlow_warnings (s : State) : s.markSlow.warnings = s.warnings := rfl

@[simp] theorem State.markSlow_plan (s : State) : s.markSlow.plan = s.plan := rfl

@[simp] theorem State.markSlow_arrowMap (s : State) : s.markSlow.arrowMap = s.arrowMap := rfl

@[simp] theorem State.markSlow_crossMap (s : State) : s.markSlow.crossMap = s.crossMap := rfl

@[simp] theorem State.markSlow_aspects (s : State) : s.markSlow.aspects = s.aspects := rfl

@[simp] theorem State.markSlow_legends (s : State) : s.markSlow.legends = s.legends := rfl

@[simp] theorem State.markSlow_lines (s : State) : s.markSlow.lines = s.lines := rfl

@[simp] theorem State.markSlow_panels (s : State) : s.markSlow.panels = s.panels := rfl

@[simp] theorem State.markSlow_history (s : State) : s.markSlow.history = s.history := rfl

/-! ### disableProgram writes programs, insts, warnings, link -/

@[simp] theorem State.disableProgram_pending (s : State) (p : Nat) : (s.disableProgram p).pending = s.pending := rfl

@[simp] theorem State.disableProgram_params (s : State) (p : Nat) : (s.disableProgram p).params = s.params := rfl

@[simp] theorem State.disableProgram_gantries (s : State) (p : Nat) : (s.disableProgram p).gantries = s.gantries := rfl

@[simp] theorem State.disableProgram_speeds (s : State) (p : Nat) : (s.disableProgram p).speeds = s.speeds := rfl

@[simp] theorem State.disableProgram_bands (s : State) (p : Nat) : (s.disableProgram p).bands = s.bands := rfl

@[simp] theorem State.disableProgram_operating (s : State) (p : Nat) : (s.disableProgram p).operating = s.operating := rfl

@[simp] theorem State.disableProgram_clock (s : State) (p : Nat) : (s.disableProgram p).clock = s.clock := rfl

@[simp] theorem State.disableProgram_planTimer (s : State) (p : Nat) : (s.disableProgram p).planTimer = s.planTimer := rfl

@[simp] theorem State.disableProgram_operatorCap (s : State) (p : Nat) : (s.disableProgram p).operatorCap = s.operatorCap := rfl

@[simp] theorem State.disableProgram_resetCause (s : State) (p : Nat) : (s.disableProgram p).resetCause = s.resetCause := rfl

@[simp] theorem State.disableProgram_nrstLow (s : State) (p : Nat) : (s.disableProgram p).nrstLow = s.nrstLow := rfl

@[simp] theorem State.disableProgram_sense (s : State) (p : Nat) : (s.disableProgram p).sense = s.sense := rfl

@[simp] theorem State.disableProgram_traffic (s : State) (p : Nat) : (s.disableProgram p).traffic = s.traffic := rfl

@[simp] theorem State.disableProgram_plan (s : State) (p : Nat) : (s.disableProgram p).plan = s.plan := rfl

@[simp] theorem State.disableProgram_closures (s : State) (p : Nat) : (s.disableProgram p).closures = s.closures := rfl

@[simp] theorem State.disableProgram_arrowMap (s : State) (p : Nat) : (s.disableProgram p).arrowMap = s.arrowMap := rfl

@[simp] theorem State.disableProgram_crossMap (s : State) (p : Nat) : (s.disableProgram p).crossMap = s.crossMap := rfl

@[simp] theorem State.disableProgram_aspects (s : State) (p : Nat) : (s.disableProgram p).aspects = s.aspects := rfl

@[simp] theorem State.disableProgram_legends (s : State) (p : Nat) : (s.disableProgram p).legends = s.legends := rfl

@[simp] theorem State.disableProgram_lines (s : State) (p : Nat) : (s.disableProgram p).lines = s.lines := rfl

@[simp] theorem State.disableProgram_panels (s : State) (p : Nat) : (s.disableProgram p).panels = s.panels := rfl

@[simp] theorem State.disableProgram_history (s : State) (p : Nat) : (s.disableProgram p).history = s.history := rfl

/-! ### recordChange writes history -/

@[simp] theorem State.recordChange_pending (s : State) (old new : PanelRec) (o : TxOutcome) : (s.recordChange old new o).pending = s.pending := by
  unfold State.recordChange; repeat' split
  all_goals rfl

@[simp] theorem State.recordChange_params (s : State) (old new : PanelRec) (o : TxOutcome) : (s.recordChange old new o).params = s.params := by
  unfold State.recordChange; repeat' split
  all_goals rfl

@[simp] theorem State.recordChange_gantries (s : State) (old new : PanelRec) (o : TxOutcome) : (s.recordChange old new o).gantries = s.gantries := by
  unfold State.recordChange; repeat' split
  all_goals rfl

@[simp] theorem State.recordChange_speeds (s : State) (old new : PanelRec) (o : TxOutcome) : (s.recordChange old new o).speeds = s.speeds := by
  unfold State.recordChange; repeat' split
  all_goals rfl

@[simp] theorem State.recordChange_bands (s : State) (old new : PanelRec) (o : TxOutcome) : (s.recordChange old new o).bands = s.bands := by
  unfold State.recordChange; repeat' split
  all_goals rfl

@[simp] theorem State.recordChange_operating (s : State) (old new : PanelRec) (o : TxOutcome) : (s.recordChange old new o).operating = s.operating := by
  unfold State.recordChange; repeat' split
  all_goals rfl

@[simp] theorem State.recordChange_clock (s : State) (old new : PanelRec) (o : TxOutcome) : (s.recordChange old new o).clock = s.clock := by
  unfold State.recordChange; repeat' split
  all_goals rfl

@[simp] theorem State.recordChange_planTimer (s : State) (old new : PanelRec) (o : TxOutcome) : (s.recordChange old new o).planTimer = s.planTimer := by
  unfold State.recordChange; repeat' split
  all_goals rfl

@[simp] theorem State.recordChange_operatorCap (s : State) (old new : PanelRec) (o : TxOutcome) : (s.recordChange old new o).operatorCap = s.operatorCap := by
  unfold State.recordChange; repeat' split
  all_goals rfl

@[simp] theorem State.recordChange_resetCause (s : State) (old new : PanelRec) (o : TxOutcome) : (s.recordChange old new o).resetCause = s.resetCause := by
  unfold State.recordChange; repeat' split
  all_goals rfl

@[simp] theorem State.recordChange_nrstLow (s : State) (old new : PanelRec) (o : TxOutcome) : (s.recordChange old new o).nrstLow = s.nrstLow := by
  unfold State.recordChange; repeat' split
  all_goals rfl

@[simp] theorem State.recordChange_sense (s : State) (old new : PanelRec) (o : TxOutcome) : (s.recordChange old new o).sense = s.sense := by
  unfold State.recordChange; repeat' split
  all_goals rfl

@[simp] theorem State.recordChange_traffic (s : State) (old new : PanelRec) (o : TxOutcome) : (s.recordChange old new o).traffic = s.traffic := by
  unfold State.recordChange; repeat' split
  all_goals rfl

@[simp] theorem State.recordChange_programs (s : State) (old new : PanelRec) (o : TxOutcome) : (s.recordChange old new o).programs = s.programs := by
  unfold State.recordChange; repeat' split
  all_goals rfl

@[simp] theorem State.recordChange_insts (s : State) (old new : PanelRec) (o : TxOutcome) : (s.recordChange old new o).insts = s.insts := by
  unfold State.recordChange; repeat' split
  all_goals rfl

@[simp] theorem State.recordChange_warnings (s : State) (old new : PanelRec) (o : TxOutcome) : (s.recordChange old new o).warnings = s.warnings := by
  unfold State.recordChange; repeat' split
  all_goals rfl

@[simp] theorem State.recordChange_plan (s : State) (old new : PanelRec) (o : TxOutcome) : (s.recordChange old new o).plan = s.plan := by
  unfold State.recordChange; repeat' split
  all_goals rfl

@[simp] theorem State.recordChange_closures (s : State) (old new : PanelRec) (o : TxOutcome) : (s.recordChange old new o).closures = s.closures := by
  unfold State.recordChange; repeat' split
  all_goals rfl

@[simp] theorem State.recordChange_arrowMap (s : State) (old new : PanelRec) (o : TxOutcome) : (s.recordChange old new o).arrowMap = s.arrowMap := by
  unfold State.recordChange; repeat' split
  all_goals rfl

@[simp] theorem State.recordChange_crossMap (s : State) (old new : PanelRec) (o : TxOutcome) : (s.recordChange old new o).crossMap = s.crossMap := by
  unfold State.recordChange; repeat' split
  all_goals rfl

@[simp] theorem State.recordChange_aspects (s : State) (old new : PanelRec) (o : TxOutcome) : (s.recordChange old new o).aspects = s.aspects := by
  unfold State.recordChange; repeat' split
  all_goals rfl

@[simp] theorem State.recordChange_legends (s : State) (old new : PanelRec) (o : TxOutcome) : (s.recordChange old new o).legends = s.legends := by
  unfold State.recordChange; repeat' split
  all_goals rfl

@[simp] theorem State.recordChange_lines (s : State) (old new : PanelRec) (o : TxOutcome) : (s.recordChange old new o).lines = s.lines := by
  unfold State.recordChange; repeat' split
  all_goals rfl

@[simp] theorem State.recordChange_panels (s : State) (old new : PanelRec) (o : TxOutcome) : (s.recordChange old new o).panels = s.panels := by
  unfold State.recordChange; repeat' split
  all_goals rfl

@[simp] theorem State.recordChange_link (s : State) (old new : PanelRec) (o : TxOutcome) : (s.recordChange old new o).link = s.link := by
  unfold State.recordChange; repeat' split
  all_goals rfl

/-! ### retry writes lines -/

@[simp] theorem State.retry_pending (s : State) (l : LineId) (x : InFlight) (o : TxOutcome) (r : PanelRec) : (s.retry l x o r).pending = s.pending := by unfold State.retry; split <;> rfl

@[simp] theorem State.retry_params (s : State) (l : LineId) (x : InFlight) (o : TxOutcome) (r : PanelRec) : (s.retry l x o r).params = s.params := by unfold State.retry; split <;> rfl

@[simp] theorem State.retry_gantries (s : State) (l : LineId) (x : InFlight) (o : TxOutcome) (r : PanelRec) : (s.retry l x o r).gantries = s.gantries := by unfold State.retry; split <;> rfl

@[simp] theorem State.retry_speeds (s : State) (l : LineId) (x : InFlight) (o : TxOutcome) (r : PanelRec) : (s.retry l x o r).speeds = s.speeds := by unfold State.retry; split <;> rfl

@[simp] theorem State.retry_bands (s : State) (l : LineId) (x : InFlight) (o : TxOutcome) (r : PanelRec) : (s.retry l x o r).bands = s.bands := by unfold State.retry; split <;> rfl

@[simp] theorem State.retry_operating (s : State) (l : LineId) (x : InFlight) (o : TxOutcome) (r : PanelRec) : (s.retry l x o r).operating = s.operating := by unfold State.retry; split <;> rfl

@[simp] theorem State.retry_clock (s : State) (l : LineId) (x : InFlight) (o : TxOutcome) (r : PanelRec) : (s.retry l x o r).clock = s.clock := by unfold State.retry; split <;> rfl

@[simp] theorem State.retry_planTimer (s : State) (l : LineId) (x : InFlight) (o : TxOutcome) (r : PanelRec) : (s.retry l x o r).planTimer = s.planTimer := by unfold State.retry; split <;> rfl

@[simp] theorem State.retry_operatorCap (s : State) (l : LineId) (x : InFlight) (o : TxOutcome) (r : PanelRec) : (s.retry l x o r).operatorCap = s.operatorCap := by unfold State.retry; split <;> rfl

@[simp] theorem State.retry_resetCause (s : State) (l : LineId) (x : InFlight) (o : TxOutcome) (r : PanelRec) : (s.retry l x o r).resetCause = s.resetCause := by unfold State.retry; split <;> rfl

@[simp] theorem State.retry_nrstLow (s : State) (l : LineId) (x : InFlight) (o : TxOutcome) (r : PanelRec) : (s.retry l x o r).nrstLow = s.nrstLow := by unfold State.retry; split <;> rfl

@[simp] theorem State.retry_sense (s : State) (l : LineId) (x : InFlight) (o : TxOutcome) (r : PanelRec) : (s.retry l x o r).sense = s.sense := by unfold State.retry; split <;> rfl

@[simp] theorem State.retry_traffic (s : State) (l : LineId) (x : InFlight) (o : TxOutcome) (r : PanelRec) : (s.retry l x o r).traffic = s.traffic := by unfold State.retry; split <;> rfl

@[simp] theorem State.retry_programs (s : State) (l : LineId) (x : InFlight) (o : TxOutcome) (r : PanelRec) : (s.retry l x o r).programs = s.programs := by unfold State.retry; split <;> rfl

@[simp] theorem State.retry_insts (s : State) (l : LineId) (x : InFlight) (o : TxOutcome) (r : PanelRec) : (s.retry l x o r).insts = s.insts := by unfold State.retry; split <;> rfl

@[simp] theorem State.retry_warnings (s : State) (l : LineId) (x : InFlight) (o : TxOutcome) (r : PanelRec) : (s.retry l x o r).warnings = s.warnings := by unfold State.retry; split <;> rfl

@[simp] theorem State.retry_plan (s : State) (l : LineId) (x : InFlight) (o : TxOutcome) (r : PanelRec) : (s.retry l x o r).plan = s.plan := by unfold State.retry; split <;> rfl

@[simp] theorem State.retry_closures (s : State) (l : LineId) (x : InFlight) (o : TxOutcome) (r : PanelRec) : (s.retry l x o r).closures = s.closures := by unfold State.retry; split <;> rfl

@[simp] theorem State.retry_arrowMap (s : State) (l : LineId) (x : InFlight) (o : TxOutcome) (r : PanelRec) : (s.retry l x o r).arrowMap = s.arrowMap := by unfold State.retry; split <;> rfl

@[simp] theorem State.retry_crossMap (s : State) (l : LineId) (x : InFlight) (o : TxOutcome) (r : PanelRec) : (s.retry l x o r).crossMap = s.crossMap := by unfold State.retry; split <;> rfl

@[simp] theorem State.retry_aspects (s : State) (l : LineId) (x : InFlight) (o : TxOutcome) (r : PanelRec) : (s.retry l x o r).aspects = s.aspects := by unfold State.retry; split <;> rfl

@[simp] theorem State.retry_legends (s : State) (l : LineId) (x : InFlight) (o : TxOutcome) (r : PanelRec) : (s.retry l x o r).legends = s.legends := by unfold State.retry; split <;> rfl

@[simp] theorem State.retry_panels (s : State) (l : LineId) (x : InFlight) (o : TxOutcome) (r : PanelRec) : (s.retry l x o r).panels = s.panels := by unfold State.retry; split <;> rfl

@[simp] theorem State.retry_history (s : State) (l : LineId) (x : InFlight) (o : TxOutcome) (r : PanelRec) : (s.retry l x o r).history = s.history := by unfold State.retry; split <;> rfl

@[simp] theorem State.retry_link (s : State) (l : LineId) (x : InFlight) (o : TxOutcome) (r : PanelRec) : (s.retry l x o r).link = s.link := by unfold State.retry; split <;> rfl

/-! ### reportHealth writes link -/

@[simp] theorem State.reportHealth_pending (s : State) (old new : PanelRec) (o : TxOutcome) : (s.reportHealth old new o).pending = s.pending := by unfold State.reportHealth; split <;> rfl

@[simp] theorem State.reportHealth_params (s : State) (old new : PanelRec) (o : TxOutcome) : (s.reportHealth old new o).params = s.params := by unfold State.reportHealth; split <;> rfl

@[simp] theorem State.reportHealth_gantries (s : State) (old new : PanelRec) (o : TxOutcome) : (s.reportHealth old new o).gantries = s.gantries := by unfold State.reportHealth; split <;> rfl

@[simp] theorem State.reportHealth_speeds (s : State) (old new : PanelRec) (o : TxOutcome) : (s.reportHealth old new o).speeds = s.speeds := by unfold State.reportHealth; split <;> rfl

@[simp] theorem State.reportHealth_bands (s : State) (old new : PanelRec) (o : TxOutcome) : (s.reportHealth old new o).bands = s.bands := by unfold State.reportHealth; split <;> rfl

@[simp] theorem State.reportHealth_operating (s : State) (old new : PanelRec) (o : TxOutcome) : (s.reportHealth old new o).operating = s.operating := by unfold State.reportHealth; split <;> rfl

@[simp] theorem State.reportHealth_clock (s : State) (old new : PanelRec) (o : TxOutcome) : (s.reportHealth old new o).clock = s.clock := by unfold State.reportHealth; split <;> rfl

@[simp] theorem State.reportHealth_planTimer (s : State) (old new : PanelRec) (o : TxOutcome) : (s.reportHealth old new o).planTimer = s.planTimer := by unfold State.reportHealth; split <;> rfl

@[simp] theorem State.reportHealth_operatorCap (s : State) (old new : PanelRec) (o : TxOutcome) : (s.reportHealth old new o).operatorCap = s.operatorCap := by unfold State.reportHealth; split <;> rfl

@[simp] theorem State.reportHealth_resetCause (s : State) (old new : PanelRec) (o : TxOutcome) : (s.reportHealth old new o).resetCause = s.resetCause := by unfold State.reportHealth; split <;> rfl

@[simp] theorem State.reportHealth_nrstLow (s : State) (old new : PanelRec) (o : TxOutcome) : (s.reportHealth old new o).nrstLow = s.nrstLow := by unfold State.reportHealth; split <;> rfl

@[simp] theorem State.reportHealth_sense (s : State) (old new : PanelRec) (o : TxOutcome) : (s.reportHealth old new o).sense = s.sense := by unfold State.reportHealth; split <;> rfl

@[simp] theorem State.reportHealth_traffic (s : State) (old new : PanelRec) (o : TxOutcome) : (s.reportHealth old new o).traffic = s.traffic := by unfold State.reportHealth; split <;> rfl

@[simp] theorem State.reportHealth_programs (s : State) (old new : PanelRec) (o : TxOutcome) : (s.reportHealth old new o).programs = s.programs := by unfold State.reportHealth; split <;> rfl

@[simp] theorem State.reportHealth_insts (s : State) (old new : PanelRec) (o : TxOutcome) : (s.reportHealth old new o).insts = s.insts := by unfold State.reportHealth; split <;> rfl

@[simp] theorem State.reportHealth_warnings (s : State) (old new : PanelRec) (o : TxOutcome) : (s.reportHealth old new o).warnings = s.warnings := by unfold State.reportHealth; split <;> rfl

@[simp] theorem State.reportHealth_plan (s : State) (old new : PanelRec) (o : TxOutcome) : (s.reportHealth old new o).plan = s.plan := by unfold State.reportHealth; split <;> rfl

@[simp] theorem State.reportHealth_closures (s : State) (old new : PanelRec) (o : TxOutcome) : (s.reportHealth old new o).closures = s.closures := by unfold State.reportHealth; split <;> rfl

@[simp] theorem State.reportHealth_arrowMap (s : State) (old new : PanelRec) (o : TxOutcome) : (s.reportHealth old new o).arrowMap = s.arrowMap := by unfold State.reportHealth; split <;> rfl

@[simp] theorem State.reportHealth_crossMap (s : State) (old new : PanelRec) (o : TxOutcome) : (s.reportHealth old new o).crossMap = s.crossMap := by unfold State.reportHealth; split <;> rfl

@[simp] theorem State.reportHealth_aspects (s : State) (old new : PanelRec) (o : TxOutcome) : (s.reportHealth old new o).aspects = s.aspects := by unfold State.reportHealth; split <;> rfl

@[simp] theorem State.reportHealth_legends (s : State) (old new : PanelRec) (o : TxOutcome) : (s.reportHealth old new o).legends = s.legends := by unfold State.reportHealth; split <;> rfl

@[simp] theorem State.reportHealth_lines (s : State) (old new : PanelRec) (o : TxOutcome) : (s.reportHealth old new o).lines = s.lines := by unfold State.reportHealth; split <;> rfl

@[simp] theorem State.reportHealth_panels (s : State) (old new : PanelRec) (o : TxOutcome) : (s.reportHealth old new o).panels = s.panels := by unfold State.reportHealth; split <;> rfl

@[simp] theorem State.reportHealth_history (s : State) (old new : PanelRec) (o : TxOutcome) : (s.reportHealth old new o).history = s.history := by unfold State.reportHealth; split <;> rfl

/-! ### askShown writes link -/

@[simp] theorem State.askShown_pending (s : State) (old new : PanelRec) : (s.askShown old new).pending = s.pending := by unfold State.askShown; split <;> rfl

@[simp] theorem State.askShown_params (s : State) (old new : PanelRec) : (s.askShown old new).params = s.params := by unfold State.askShown; split <;> rfl

@[simp] theorem State.askShown_gantries (s : State) (old new : PanelRec) : (s.askShown old new).gantries = s.gantries := by unfold State.askShown; split <;> rfl

@[simp] theorem State.askShown_speeds (s : State) (old new : PanelRec) : (s.askShown old new).speeds = s.speeds := by unfold State.askShown; split <;> rfl

@[simp] theorem State.askShown_bands (s : State) (old new : PanelRec) : (s.askShown old new).bands = s.bands := by unfold State.askShown; split <;> rfl

@[simp] theorem State.askShown_operating (s : State) (old new : PanelRec) : (s.askShown old new).operating = s.operating := by unfold State.askShown; split <;> rfl

@[simp] theorem State.askShown_clock (s : State) (old new : PanelRec) : (s.askShown old new).clock = s.clock := by unfold State.askShown; split <;> rfl

@[simp] theorem State.askShown_planTimer (s : State) (old new : PanelRec) : (s.askShown old new).planTimer = s.planTimer := by unfold State.askShown; split <;> rfl

@[simp] theorem State.askShown_operatorCap (s : State) (old new : PanelRec) : (s.askShown old new).operatorCap = s.operatorCap := by unfold State.askShown; split <;> rfl

@[simp] theorem State.askShown_resetCause (s : State) (old new : PanelRec) : (s.askShown old new).resetCause = s.resetCause := by unfold State.askShown; split <;> rfl

@[simp] theorem State.askShown_nrstLow (s : State) (old new : PanelRec) : (s.askShown old new).nrstLow = s.nrstLow := by unfold State.askShown; split <;> rfl

@[simp] theorem State.askShown_sense (s : State) (old new : PanelRec) : (s.askShown old new).sense = s.sense := by unfold State.askShown; split <;> rfl

@[simp] theorem State.askShown_traffic (s : State) (old new : PanelRec) : (s.askShown old new).traffic = s.traffic := by unfold State.askShown; split <;> rfl

@[simp] theorem State.askShown_programs (s : State) (old new : PanelRec) : (s.askShown old new).programs = s.programs := by unfold State.askShown; split <;> rfl

@[simp] theorem State.askShown_insts (s : State) (old new : PanelRec) : (s.askShown old new).insts = s.insts := by unfold State.askShown; split <;> rfl

@[simp] theorem State.askShown_warnings (s : State) (old new : PanelRec) : (s.askShown old new).warnings = s.warnings := by unfold State.askShown; split <;> rfl

@[simp] theorem State.askShown_plan (s : State) (old new : PanelRec) : (s.askShown old new).plan = s.plan := by unfold State.askShown; split <;> rfl

@[simp] theorem State.askShown_closures (s : State) (old new : PanelRec) : (s.askShown old new).closures = s.closures := by unfold State.askShown; split <;> rfl

@[simp] theorem State.askShown_arrowMap (s : State) (old new : PanelRec) : (s.askShown old new).arrowMap = s.arrowMap := by unfold State.askShown; split <;> rfl

@[simp] theorem State.askShown_crossMap (s : State) (old new : PanelRec) : (s.askShown old new).crossMap = s.crossMap := by unfold State.askShown; split <;> rfl

@[simp] theorem State.askShown_aspects (s : State) (old new : PanelRec) : (s.askShown old new).aspects = s.aspects := by unfold State.askShown; split <;> rfl

@[simp] theorem State.askShown_legends (s : State) (old new : PanelRec) : (s.askShown old new).legends = s.legends := by unfold State.askShown; split <;> rfl

@[simp] theorem State.askShown_lines (s : State) (old new : PanelRec) : (s.askShown old new).lines = s.lines := by unfold State.askShown; split <;> rfl

@[simp] theorem State.askShown_panels (s : State) (old new : PanelRec) : (s.askShown old new).panels = s.panels := by unfold State.askShown; split <;> rfl

@[simp] theorem State.askShown_history (s : State) (old new : PanelRec) : (s.askShown old new).history = s.history := by unfold State.askShown; split <;> rfl

/-! ### applyOutcome writes history, panels, lines, link, plan, aspects, closures, arrowMap, crossMap -/

@[simp] theorem State.applyOutcome_pending (s : State) (l : LineId) (x : InFlight) (j : Judged) (old : PanelRec) : (s.applyOutcome l x j old).pending = s.pending := by unfold State.applyOutcome; dsimp only; split <;> simp

@[simp] theorem State.applyOutcome_params (s : State) (l : LineId) (x : InFlight) (j : Judged) (old : PanelRec) : (s.applyOutcome l x j old).params = s.params := by unfold State.applyOutcome; dsimp only; split <;> simp

@[simp] theorem State.applyOutcome_gantries (s : State) (l : LineId) (x : InFlight) (j : Judged) (old : PanelRec) : (s.applyOutcome l x j old).gantries = s.gantries := by unfold State.applyOutcome; dsimp only; split <;> simp

@[simp] theorem State.applyOutcome_speeds (s : State) (l : LineId) (x : InFlight) (j : Judged) (old : PanelRec) : (s.applyOutcome l x j old).speeds = s.speeds := by unfold State.applyOutcome; dsimp only; split <;> simp

@[simp] theorem State.applyOutcome_bands (s : State) (l : LineId) (x : InFlight) (j : Judged) (old : PanelRec) : (s.applyOutcome l x j old).bands = s.bands := by unfold State.applyOutcome; dsimp only; split <;> simp

@[simp] theorem State.applyOutcome_operating (s : State) (l : LineId) (x : InFlight) (j : Judged) (old : PanelRec) : (s.applyOutcome l x j old).operating = s.operating := by unfold State.applyOutcome; dsimp only; split <;> simp

@[simp] theorem State.applyOutcome_clock (s : State) (l : LineId) (x : InFlight) (j : Judged) (old : PanelRec) : (s.applyOutcome l x j old).clock = s.clock := by unfold State.applyOutcome; dsimp only; split <;> simp

@[simp] theorem State.applyOutcome_planTimer (s : State) (l : LineId) (x : InFlight) (j : Judged) (old : PanelRec) : (s.applyOutcome l x j old).planTimer = s.planTimer := by unfold State.applyOutcome; dsimp only; split <;> simp

@[simp] theorem State.applyOutcome_operatorCap (s : State) (l : LineId) (x : InFlight) (j : Judged) (old : PanelRec) : (s.applyOutcome l x j old).operatorCap = s.operatorCap := by unfold State.applyOutcome; dsimp only; split <;> simp

@[simp] theorem State.applyOutcome_resetCause (s : State) (l : LineId) (x : InFlight) (j : Judged) (old : PanelRec) : (s.applyOutcome l x j old).resetCause = s.resetCause := by unfold State.applyOutcome; dsimp only; split <;> simp

@[simp] theorem State.applyOutcome_nrstLow (s : State) (l : LineId) (x : InFlight) (j : Judged) (old : PanelRec) : (s.applyOutcome l x j old).nrstLow = s.nrstLow := by unfold State.applyOutcome; dsimp only; split <;> simp

@[simp] theorem State.applyOutcome_sense (s : State) (l : LineId) (x : InFlight) (j : Judged) (old : PanelRec) : (s.applyOutcome l x j old).sense = s.sense := by unfold State.applyOutcome; dsimp only; split <;> simp

@[simp] theorem State.applyOutcome_traffic (s : State) (l : LineId) (x : InFlight) (j : Judged) (old : PanelRec) : (s.applyOutcome l x j old).traffic = s.traffic := by unfold State.applyOutcome; dsimp only; split <;> simp

@[simp] theorem State.applyOutcome_programs (s : State) (l : LineId) (x : InFlight) (j : Judged) (old : PanelRec) : (s.applyOutcome l x j old).programs = s.programs := by unfold State.applyOutcome; dsimp only; split <;> simp

@[simp] theorem State.applyOutcome_insts (s : State) (l : LineId) (x : InFlight) (j : Judged) (old : PanelRec) : (s.applyOutcome l x j old).insts = s.insts := by unfold State.applyOutcome; dsimp only; split <;> simp

@[simp] theorem State.applyOutcome_warnings (s : State) (l : LineId) (x : InFlight) (j : Judged) (old : PanelRec) : (s.applyOutcome l x j old).warnings = s.warnings := by unfold State.applyOutcome; dsimp only; split <;> simp

@[simp] theorem State.applyOutcome_legends (s : State) (l : LineId) (x : InFlight) (j : Judged) (old : PanelRec) : (s.applyOutcome l x j old).legends = s.legends := by unfold State.applyOutcome; dsimp only; split <;> simp

/-! ### endTransaction writes history, panels, lines, link, plan, aspects, closures, arrowMap, crossMap -/

@[simp] theorem State.endTransaction_pending (s : State) (l : LineId) (x : InFlight) (j : Nat → Judged) : (s.endTransaction l x j).pending = s.pending := by unfold State.endTransaction; dsimp only; split <;> simp

@[simp] theorem State.endTransaction_params (s : State) (l : LineId) (x : InFlight) (j : Nat → Judged) : (s.endTransaction l x j).params = s.params := by unfold State.endTransaction; dsimp only; split <;> simp

@[simp] theorem State.endTransaction_gantries (s : State) (l : LineId) (x : InFlight) (j : Nat → Judged) : (s.endTransaction l x j).gantries = s.gantries := by unfold State.endTransaction; dsimp only; split <;> simp

@[simp] theorem State.endTransaction_speeds (s : State) (l : LineId) (x : InFlight) (j : Nat → Judged) : (s.endTransaction l x j).speeds = s.speeds := by unfold State.endTransaction; dsimp only; split <;> simp

@[simp] theorem State.endTransaction_bands (s : State) (l : LineId) (x : InFlight) (j : Nat → Judged) : (s.endTransaction l x j).bands = s.bands := by unfold State.endTransaction; dsimp only; split <;> simp

@[simp] theorem State.endTransaction_operating (s : State) (l : LineId) (x : InFlight) (j : Nat → Judged) : (s.endTransaction l x j).operating = s.operating := by unfold State.endTransaction; dsimp only; split <;> simp

@[simp] theorem State.endTransaction_clock (s : State) (l : LineId) (x : InFlight) (j : Nat → Judged) : (s.endTransaction l x j).clock = s.clock := by unfold State.endTransaction; dsimp only; split <;> simp

@[simp] theorem State.endTransaction_planTimer (s : State) (l : LineId) (x : InFlight) (j : Nat → Judged) : (s.endTransaction l x j).planTimer = s.planTimer := by unfold State.endTransaction; dsimp only; split <;> simp

@[simp] theorem State.endTransaction_operatorCap (s : State) (l : LineId) (x : InFlight) (j : Nat → Judged) : (s.endTransaction l x j).operatorCap = s.operatorCap := by unfold State.endTransaction; dsimp only; split <;> simp

@[simp] theorem State.endTransaction_resetCause (s : State) (l : LineId) (x : InFlight) (j : Nat → Judged) : (s.endTransaction l x j).resetCause = s.resetCause := by unfold State.endTransaction; dsimp only; split <;> simp

@[simp] theorem State.endTransaction_nrstLow (s : State) (l : LineId) (x : InFlight) (j : Nat → Judged) : (s.endTransaction l x j).nrstLow = s.nrstLow := by unfold State.endTransaction; dsimp only; split <;> simp

@[simp] theorem State.endTransaction_sense (s : State) (l : LineId) (x : InFlight) (j : Nat → Judged) : (s.endTransaction l x j).sense = s.sense := by unfold State.endTransaction; dsimp only; split <;> simp

@[simp] theorem State.endTransaction_traffic (s : State) (l : LineId) (x : InFlight) (j : Nat → Judged) : (s.endTransaction l x j).traffic = s.traffic := by unfold State.endTransaction; dsimp only; split <;> simp

@[simp] theorem State.endTransaction_programs (s : State) (l : LineId) (x : InFlight) (j : Nat → Judged) : (s.endTransaction l x j).programs = s.programs := by unfold State.endTransaction; dsimp only; split <;> simp

@[simp] theorem State.endTransaction_insts (s : State) (l : LineId) (x : InFlight) (j : Nat → Judged) : (s.endTransaction l x j).insts = s.insts := by unfold State.endTransaction; dsimp only; split <;> simp

@[simp] theorem State.endTransaction_warnings (s : State) (l : LineId) (x : InFlight) (j : Nat → Judged) : (s.endTransaction l x j).warnings = s.warnings := by unfold State.endTransaction; dsimp only; split <;> simp

@[simp] theorem State.endTransaction_legends (s : State) (l : LineId) (x : InFlight) (j : Nat → Judged) : (s.endTransaction l x j).legends = s.legends := by unfold State.endTransaction; dsimp only; split <;> simp

/-! ### endIn writes history, panels, lines, link, plan, aspects, closures, arrowMap, crossMap -/

@[simp] theorem State.endIn_pending (s : State) (l : LineId) (p : Phase) (j : InFlight → Nat → Judged) : (s.endIn l p j).pending = s.pending := by
  unfold State.endIn; repeat' split
  all_goals simp

@[simp] theorem State.endIn_params (s : State) (l : LineId) (p : Phase) (j : InFlight → Nat → Judged) : (s.endIn l p j).params = s.params := by
  unfold State.endIn; repeat' split
  all_goals simp

@[simp] theorem State.endIn_gantries (s : State) (l : LineId) (p : Phase) (j : InFlight → Nat → Judged) : (s.endIn l p j).gantries = s.gantries := by
  unfold State.endIn; repeat' split
  all_goals simp

@[simp] theorem State.endIn_speeds (s : State) (l : LineId) (p : Phase) (j : InFlight → Nat → Judged) : (s.endIn l p j).speeds = s.speeds := by
  unfold State.endIn; repeat' split
  all_goals simp

@[simp] theorem State.endIn_bands (s : State) (l : LineId) (p : Phase) (j : InFlight → Nat → Judged) : (s.endIn l p j).bands = s.bands := by
  unfold State.endIn; repeat' split
  all_goals simp

@[simp] theorem State.endIn_operating (s : State) (l : LineId) (p : Phase) (j : InFlight → Nat → Judged) : (s.endIn l p j).operating = s.operating := by
  unfold State.endIn; repeat' split
  all_goals simp

@[simp] theorem State.endIn_clock (s : State) (l : LineId) (p : Phase) (j : InFlight → Nat → Judged) : (s.endIn l p j).clock = s.clock := by
  unfold State.endIn; repeat' split
  all_goals simp

@[simp] theorem State.endIn_planTimer (s : State) (l : LineId) (p : Phase) (j : InFlight → Nat → Judged) : (s.endIn l p j).planTimer = s.planTimer := by
  unfold State.endIn; repeat' split
  all_goals simp

@[simp] theorem State.endIn_operatorCap (s : State) (l : LineId) (p : Phase) (j : InFlight → Nat → Judged) : (s.endIn l p j).operatorCap = s.operatorCap := by
  unfold State.endIn; repeat' split
  all_goals simp

@[simp] theorem State.endIn_resetCause (s : State) (l : LineId) (p : Phase) (j : InFlight → Nat → Judged) : (s.endIn l p j).resetCause = s.resetCause := by
  unfold State.endIn; repeat' split
  all_goals simp

@[simp] theorem State.endIn_nrstLow (s : State) (l : LineId) (p : Phase) (j : InFlight → Nat → Judged) : (s.endIn l p j).nrstLow = s.nrstLow := by
  unfold State.endIn; repeat' split
  all_goals simp

@[simp] theorem State.endIn_sense (s : State) (l : LineId) (p : Phase) (j : InFlight → Nat → Judged) : (s.endIn l p j).sense = s.sense := by
  unfold State.endIn; repeat' split
  all_goals simp

@[simp] theorem State.endIn_traffic (s : State) (l : LineId) (p : Phase) (j : InFlight → Nat → Judged) : (s.endIn l p j).traffic = s.traffic := by
  unfold State.endIn; repeat' split
  all_goals simp

@[simp] theorem State.endIn_programs (s : State) (l : LineId) (p : Phase) (j : InFlight → Nat → Judged) : (s.endIn l p j).programs = s.programs := by
  unfold State.endIn; repeat' split
  all_goals simp

@[simp] theorem State.endIn_insts (s : State) (l : LineId) (p : Phase) (j : InFlight → Nat → Judged) : (s.endIn l p j).insts = s.insts := by
  unfold State.endIn; repeat' split
  all_goals simp

@[simp] theorem State.endIn_warnings (s : State) (l : LineId) (p : Phase) (j : InFlight → Nat → Judged) : (s.endIn l p j).warnings = s.warnings := by
  unfold State.endIn; repeat' split
  all_goals simp

@[simp] theorem State.endIn_legends (s : State) (l : LineId) (p : Phase) (j : InFlight → Nat → Judged) : (s.endIn l p j).legends = s.legends := by
  unfold State.endIn; repeat' split
  all_goals simp

/-! ### crossSupply writes lines, link -/

@[simp] theorem State.crossSupply_pending (s : State) (l : LineId) (v : Supply) : (s.crossSupply l v).pending = s.pending := rfl

@[simp] theorem State.crossSupply_params (s : State) (l : LineId) (v : Supply) : (s.crossSupply l v).params = s.params := rfl

@[simp] theorem State.crossSupply_gantries (s : State) (l : LineId) (v : Supply) : (s.crossSupply l v).gantries = s.gantries := rfl

@[simp] theorem State.crossSupply_speeds (s : State) (l : LineId) (v : Supply) : (s.crossSupply l v).speeds = s.speeds := rfl

@[simp] theorem State.crossSupply_bands (s : State) (l : LineId) (v : Supply) : (s.crossSupply l v).bands = s.bands := rfl

@[simp] theorem State.crossSupply_operating (s : State) (l : LineId) (v : Supply) : (s.crossSupply l v).operating = s.operating := rfl

@[simp] theorem State.crossSupply_clock (s : State) (l : LineId) (v : Supply) : (s.crossSupply l v).clock = s.clock := rfl

@[simp] theorem State.crossSupply_planTimer (s : State) (l : LineId) (v : Supply) : (s.crossSupply l v).planTimer = s.planTimer := rfl

@[simp] theorem State.crossSupply_operatorCap (s : State) (l : LineId) (v : Supply) : (s.crossSupply l v).operatorCap = s.operatorCap := rfl

@[simp] theorem State.crossSupply_resetCause (s : State) (l : LineId) (v : Supply) : (s.crossSupply l v).resetCause = s.resetCause := rfl

@[simp] theorem State.crossSupply_nrstLow (s : State) (l : LineId) (v : Supply) : (s.crossSupply l v).nrstLow = s.nrstLow := rfl

@[simp] theorem State.crossSupply_sense (s : State) (l : LineId) (v : Supply) : (s.crossSupply l v).sense = s.sense := rfl

@[simp] theorem State.crossSupply_traffic (s : State) (l : LineId) (v : Supply) : (s.crossSupply l v).traffic = s.traffic := rfl

@[simp] theorem State.crossSupply_programs (s : State) (l : LineId) (v : Supply) : (s.crossSupply l v).programs = s.programs := rfl

@[simp] theorem State.crossSupply_insts (s : State) (l : LineId) (v : Supply) : (s.crossSupply l v).insts = s.insts := rfl

@[simp] theorem State.crossSupply_warnings (s : State) (l : LineId) (v : Supply) : (s.crossSupply l v).warnings = s.warnings := rfl

@[simp] theorem State.crossSupply_plan (s : State) (l : LineId) (v : Supply) : (s.crossSupply l v).plan = s.plan := rfl

@[simp] theorem State.crossSupply_closures (s : State) (l : LineId) (v : Supply) : (s.crossSupply l v).closures = s.closures := rfl

@[simp] theorem State.crossSupply_arrowMap (s : State) (l : LineId) (v : Supply) : (s.crossSupply l v).arrowMap = s.arrowMap := rfl

@[simp] theorem State.crossSupply_crossMap (s : State) (l : LineId) (v : Supply) : (s.crossSupply l v).crossMap = s.crossMap := rfl

@[simp] theorem State.crossSupply_aspects (s : State) (l : LineId) (v : Supply) : (s.crossSupply l v).aspects = s.aspects := rfl

@[simp] theorem State.crossSupply_legends (s : State) (l : LineId) (v : Supply) : (s.crossSupply l v).legends = s.legends := rfl

@[simp] theorem State.crossSupply_panels (s : State) (l : LineId) (v : Supply) : (s.crossSupply l v).panels = s.panels := rfl

@[simp] theorem State.crossSupply_history (s : State) (l : LineId) (v : Supply) : (s.crossSupply l v).history = s.history := rfl

end Sys2Proof.Machine
end

