-- ==== Sys2Proof/Laws/Link.lean ====
section
/-! SUPPORT. The link port, said once: what placing reports leaves alone, what the transmitter's choice does, and what taking a
request of a known kind does. -/

namespace Sys2Proof.Machine

open Sys2Proof

/-! ## Placing a report (R165, R166) -/

theorem Link.place_eq (l : Link) (r : Report) :
    l.place r = { l with urgent := (l.place r).urgent, routine := (l.place r).routine,
                         reportsLost := (l.place r).reportsLost } := by
  cases r <;> simp only [Link.place, Link.askShown, Link.placeUrgent, Link.placeRoutine] <;>
    repeat' split
  all_goals rfl

/-- Several reports placed change the report queue and REPORTS_LOST alone. -/
theorem Link.placeAll_eq (l : Link) (rs : List Report) :
    rs.foldl Link.place l = { l with urgent := (rs.foldl Link.place l).urgent, routine := (rs.foldl Link.place l).routine,
                                     reportsLost := (rs.foldl Link.place l).reportsLost } := by
  induction rs generalizing l with
  | nil => rfl
  | cons r rs ih =>
    rw [List.foldl_cons, ih, Link.place_eq l r]

@[simp] theorem Link.place_rx (l : Link) (r : Report) : (l.place r).rx = l.rx := by rw [Link.place_eq]
@[simp] theorem Link.place_replies (l : Link) (r : Report) : (l.place r).replies = l.replies := by rw [Link.place_eq]
@[simp] theorem Link.place_tx (l : Link) (r : Report) : (l.place r).tx = l.tx := by rw [Link.place_eq]
@[simp] theorem Link.place_overrun (l : Link) (r : Report) : (l.place r).overrun = l.overrun := by rw [Link.place_eq]
@[simp] theorem Link.place_frameDiscards (l : Link) (r : Report) : (l.place r).frameDiscards = l.frameDiscards := by
  rw [Link.place_eq]
@[simp] theorem Link.place_requestDiscards (l : Link) (r : Report) :
    (l.place r).requestDiscards = l.requestDiscards := by rw [Link.place_eq]
@[simp] theorem Link.place_resetPending (l : Link) (r : Report) : (l.place r).resetPending = l.resetPending := by
  rw [Link.place_eq]

@[simp] theorem Link.placeAll_rx (l : Link) (rs : List Report) : (rs.foldl Link.place l).rx = l.rx := by
  rw [Link.placeAll_eq]
@[simp] theorem Link.placeAll_replies (l : Link) (rs : List Report) : (rs.foldl Link.place l).replies = l.replies := by
  rw [Link.placeAll_eq]
@[simp] theorem Link.placeAll_tx (l : Link) (rs : List Report) : (rs.foldl Link.place l).tx = l.tx := by
  rw [Link.placeAll_eq]
@[simp] theorem Link.placeAll_overrun (l : Link) (rs : List Report) : (rs.foldl Link.place l).overrun = l.overrun := by
  rw [Link.placeAll_eq]
@[simp] theorem Link.placeAll_frameDiscards (l : Link) (rs : List Report) :
    (rs.foldl Link.place l).frameDiscards = l.frameDiscards := by rw [Link.placeAll_eq]
@[simp] theorem Link.placeAll_requestDiscards (l : Link) (rs : List Report) :
    (rs.foldl Link.place l).requestDiscards = l.requestDiscards := by rw [Link.placeAll_eq]
@[simp] theorem Link.placeAll_resetPending (l : Link) (rs : List Report) :
    (rs.foldl Link.place l).resetPending = l.resetPending := by rw [Link.placeAll_eq]

/-- Placing reads nothing of the link port but the report queue and REPORTS_LOST: a receiver that moves does not matter. -/
theorem Link.place_setRx (l : Link) (rx : Receiver) (r : Report) :
    Link.place { l with rx := rx } r = { l.place r with rx := rx } := by
  obtain ⟨rx₀, replies, urgent, routine, overrun, lost, fd, rd, tx, rp⟩ := l
  by_cases h : urgent.length + routine.length < 32 <;> cases routine <;> cases r <;>
    simp_all [Link.place, Link.askShown, Link.placeUrgent, Link.placeRoutine, Link.hasRoom, Link.shownQueued,
      Config.reportCapacity] <;>
    (repeat' split) <;> rfl

theorem Link.placeAll_setRx (l : Link) (rx : Receiver) (rs : List Report) :
    rs.foldl Link.place { l with rx := rx } = { rs.foldl Link.place l with rx := rx } := by
  induction rs generalizing l with
  | nil => rfl
  | cons r rs ih => rw [List.foldl_cons, List.foldl_cons, Link.place_setRx, ih]

/-! ## Taking a request (R161) -/

/-- The length test is that the body has the length its kind asks for (R175). -/
theorem lengthFits_iff (k : RequestKind) (body : Bytes) : lengthFits k body = true ↔ neededLength k body = some body.length := by
  have swap : ∀ m n : Nat, (m == n) = true ↔ some n = some m := by
    intro m n
    rw [beq_iff_eq, Option.some.injEq]
    exact eq_comm
  have counted : ∀ offset fixed each : Nat, countedLength body offset fixed each = true ↔
      body[offset]?.map (fun n => fixed + each * n.toNat) = some body.length := by
    intro offset fixed each
    unfold countedLength
    cases body[offset]? with
    | none => simp
    | some n => exact swap _ _
  cases k
  case mapGantry => exact counted 3 7 2
  case mapSpeeds => exact (counted 0 1 1).trans (by simp [neededLength])
  case mapBands => exact counted 0 1 7
  case detector => exact counted 2 3 5
  all_goals exact swap _ _

/-- A good frame that arrives after RESET was acted on is lost (R170). -/
theorem State.arrive_lost {s : State} {body : Bytes} {act : State → State × Frame} (h : s.nrstLow = false)
    (hb : body.length ≤ 240) (hp : s.link.resetPending = true) :
    s.arrive body act = { s with link := { s.link with rx := .hunt } } := by
  have hb' : ¬ Config.maxBody < body.length := by simp [Config.maxBody]; omega
  unfold State.arrive
  rw [if_neg (by simp [h]), if_neg hb']
  dsimp only
  rw [if_pos (by simp [hp])]

/-- A good frame that arrives at a full reply FIFO is discarded (R160). -/
theorem State.arrive_full {s : State} {body : Bytes} {act : State → State × Frame} (h : s.nrstLow = false)
    (hb : body.length ≤ 240) (hp : s.link.resetPending = false) (hf : 4 ≤ s.link.replies.length) :
    s.arrive body act = { s with link := { s.link with
      rx := .hunt, overrun := true, requestDiscards := min (s.link.requestDiscards + 1) 65535 } } := by
  have hb' : ¬ Config.maxBody < body.length := by simp [Config.maxBody]; omega
  unfold State.arrive
  rw [if_neg (by simp [h]), if_neg hb']
  dsimp only
  rw [if_neg (by simp [hp]), if_pos (by simpa [Config.replyCapacity] using hf)]
  rfl

/-- A good frame taken, with NRST high, no RESET acted on and room for a reply: the block's effect, its reports, its reply.
`b` says whether the effect was RESET's (R170). -/
theorem State.arrive_answers {i : Instr} {s t u : State} {kind tag : Byte} {body items : Bytes} {b : Bool}
    {act : State → State × Frame} {rs : List Report}
    (hexec : exec i s = .next (s.arrive body act)) (hr : s.receptive) (hb : body.length ≤ 240)
    (he : act { s with link := { s.link with rx := .hunt } } = (t, ⟨kind, tag, items⟩))
    (ht : t.link = { rs.foldl Link.place { s.link with rx := .hunt } with resetPending := b }) (hn : t.nrstLow = false)
    (hu : { t with link := u.link } = u) :
    ∃ r, exec i s = .next r ∧ SameBlocks u r ∧ Replies s r ⟨kind, tag, items⟩ ∧ Reported s r rs
      ∧ r.link.resetPending = b := by
  obtain ⟨h1, h2, h3⟩ := hr
  refine ⟨_, hexec, ?_⟩
  rw [Link.placeAll_setRx] at ht
  have hb' : ¬ Config.maxBody < body.length := by simp [Config.maxBody]; omega
  have h3' : ¬ Config.replyCapacity ≤ s.link.replies.length := by simp [Config.replyCapacity]; omega
  have hchoose : ∀ (c : Clock) (ps : List PanelRec) (l : Link) (f : Frame) (fs : List Frame), l.replies = f :: fs →
      Link.choose c ps l = l.startReply f fs := by
    intro c ps l f fs h
    simp [Link.choose, h]
  generalize hL : rs.foldl Link.place s.link = L at ht
  have hq : L.rx = s.link.rx ∧ L.replies = s.link.replies ∧ L.tx = s.link.tx ∧ L.overrun = s.link.overrun
      ∧ L.frameDiscards = s.link.frameDiscards ∧ L.requestDiscards = s.link.requestDiscards := by subst hL; simp
  obtain ⟨-, q2, q3, q4, q5, q6⟩ := hq
  have harrive : s.arrive body act = State.transmit { t with link := t.link.placeReply ⟨kind, tag, items⟩ } := by
    unfold State.arrive
    rw [if_neg (by simp [h1]), if_neg hb']
    dsimp only
    rw [if_neg (by simp [h2]), if_neg h3', he]
  rw [harrive]
  simp only [State.transmit, hn, Bool.false_or, ht, Link.placeReply, Reported, hL]
  rw [← hu]
  cases htx : s.link.tx with
  | none =>
    cases hrep : s.link.replies with
    | nil =>
      rw [hchoose _ _ _ ⟨kind, tag, items⟩ [] (by simp [q2, hrep])]
      simp [hn, q3, q4, q5, q6, htx, hrep, SameBlocks, Replies, State.outgoing,
        Link.startReply]
    | cons f fs =>
      rw [hchoose _ _ _ f (fs ++ [⟨kind, tag, items⟩]) (by simp [q2, hrep])]
      simp [hn, q3, q4, q5, q6, htx, hrep, SameBlocks, Replies, State.outgoing,
        Link.startReply]
  | some x => simp [hn, q2, q3, q4, q5, q6, htx, SameBlocks, Replies, State.outgoing]

/-- The same for every command but RESET. -/
theorem Acts.of_arrive {i : Instr} {s t u : State} {kind tag : Byte} {body items : Bytes}
    {act : State → State × Frame} {rs : List Report}
    (hexec : exec i s = .next (s.arrive body act)) (hr : s.receptive) (hb : body.length ≤ 240)
    (he : act { s with link := { s.link with rx := .hunt } } = (t, ⟨kind, tag, items⟩))
    (ht : t.link = rs.foldl Link.place { s.link with rx := .hunt }) (hn : t.nrstLow = false)
    (hu : { t with link := u.link } = u) :
    Acts i s kind tag items u rs :=
  State.arrive_answers hexec hr hb he (by rw [ht, Link.placeAll_eq]) hn hu

/-- A request of a known kind taken: the effect's blocks, its reports and its reply. -/
theorem Acts.of_take {i : Instr} {s t u : State} {k : RequestKind} {tag : Byte} {body items : Bytes}
    {effect : Bytes → State → Answer} {rs : List Report}
    (hexec : exec i s = .next (s.take k tag body effect)) (hr : s.receptive) (hb : body.length ≤ 240)
    (hl : neededLength k body = some body.length)
    (he : effect body { s with link := { s.link with rx := .hunt } } = (t, items))
    (ht : t.link = rs.foldl Link.place { s.link with rx := .hunt }) (hn : t.nrstLow = false)
    (hu : { t with link := u.link } = u) :
    Acts i s (k.code + 0x80) tag (carriedBody items) u rs :=
  Acts.of_arrive hexec hr hb (by simp only [if_pos ((lengthFits_iff k body).2 hl), he]) ht hn hu

/-- A request that has no effect besides its answer. -/
theorem OnlyAnswers.of_take {i : Instr} {s : State} {k : RequestKind} {tag : Byte} {body items : Bytes}
    {effect : Bytes → State → Answer} (hexec : exec i s = .next (s.take k tag body effect)) (hr : s.receptive)
    (hb : body.length ≤ 240) (hl : neededLength k body = some body.length)
    (he : ∀ r : State, { r with link := s.link } = s → effect body r = (r, items)) :
    OnlyAnswers i s (k.code + 0x80) tag (carriedBody items) :=
  Acts.of_take (t := { s with link := { s.link with rx := .hunt } }) (rs := []) hexec hr hb hl (he _ rfl) rfl hr.1 rfl

/-- Items that fit are the body. -/
@[simp] theorem carriedBody_of_fits {items : Bytes} (h : items.length ≤ 240) : carriedBody items = items := by
  have hf : ([items.drop 1] : List Bytes).flatten = items.drop 1 := by simp
  unfold carriedBody carriedSections
  rw [hf, if_pos (by rw [List.length_drop]; exact Nat.sub_le_sub_right h 1), List.take_append_drop]

/-! ## What a frame carries of a reply (R173) -/

theorem wholeSections_length (room : Nat) (sections : List Bytes) : (wholeSections room sections).length ≤ room := by
  induction sections generalizing room with
  | nil => exact Nat.zero_le _
  | cons x rest ih =>
    unfold wholeSections
    split
    · have := ih (room - x.length)
      rw [List.length_append]
      omega
    · exact Nat.zero_le _

/-- The first sections that fit stand whole, in front. -/
theorem wholeSections_prefix (room : Nat) (sections : List Bytes) (n : Nat)
    (h : (sections.take n).flatten.length ≤ room) : (sections.take n).flatten <+: wholeSections room sections := by
  induction sections generalizing room n with
  | nil => simp
  | cons x rest ih =>
    cases n with
    | zero => simp
    | succ n =>
      simp only [List.take_succ_cons, List.flatten_cons, List.length_append] at h ⊢
      unfold wholeSections
      rw [if_pos (by omega)]
      exact (List.prefix_append_right_inj x).2 (ih _ _ (by omega))

/-- All that can be said of what a frame carries behind the result code. -/
theorem carriedSections_spec (sections : List Bytes) :
    (carriedSections sections).length ≤ 239
    ∧ (sections.flatten.length ≤ 239 → carriedSections sections = sections.flatten)
    ∧ ∀ n, (sections.take n).flatten.length ≤ 239 → (sections.take n).flatten <+: carriedSections sections := by
  unfold carriedSections
  refine ⟨?_, fun h => if_pos h, fun n h => ?_⟩
  · dsimp only
    split
    · assumption
    · have := wholeSections_length 239 sections
      rw [List.length_append, List.length_take]
      show (wholeSections 239 sections).length + min (239 - (wholeSections 239 sections).length) _ ≤ 239
      omega
  · dsimp only
    split
    · exact ⟨(sections.drop n).flatten, by rw [← List.flatten_append, List.take_append_drop]⟩
    · exact (wholeSections_prefix _ _ _ h).trans (List.prefix_append _ _)

/-- An answer of OK and carried sections tells them. -/
theorem Tells.of_carried {i : Instr} {s : State} {kind tag : Byte} {sections : List Bytes}
    (h : OnlyAnswers i s kind tag (0x00 :: carriedSections sections)) : Tells i s kind tag ([0x00] :: sections) := by
  obtain ⟨h1, h2, h3⟩ := carriedSections_spec sections
  refine ⟨_, h, by simpa using Nat.succ_le_succ h1, fun hf => ?_, fun n hn => ?_⟩
  · rw [h2 (by simpa using Nat.le_of_succ_le_succ (by simpa using hf))]
    rfl
  · cases n with
    | zero => simp
    | succ n =>
      have := h3 n (by simpa using Nat.le_of_succ_le_succ (by simpa using hn))
      simpa using this

/-- A reply's items behind the result code, as one section. -/
theorem carriedBody_cons (code : Byte) (items : Bytes) : carriedBody (code :: items) = code :: carriedSections [items] := rfl

/-- What a frame can carry behind its code is carried as it is. -/
theorem carriedBody_carried (code : Byte) (sections : List Bytes) :
    carriedBody (code :: carriedSections sections) = code :: carriedSections sections :=
  carriedBody_of_fits (by simpa using Nat.succ_le_succ (carriedSections_spec sections).1)

end Sys2Proof.Machine
end

