-- ==== Sys2Proof/Laws/Effects.lean ====
section
/-! SUPPORT. What a change of sources sets off, said once: the reports it places, the lines it touches, and what it leaves
alone; and the panel records under replacement. -/

namespace Sys2Proof.Machine

open Sys2Proof

/-! ## One value per line -/

@[simp] theorem PerLine.get_set {α : Type} (p : PerLine α) (l m : LineId) (v : α) :
    (p.set l v).get m = if m = l then v else p.get m := by cases l <;> cases m <;> rfl

@[simp] theorem PerLine.set_get {α : Type} (p : PerLine α) (l : LineId) : p.set l (p.get l) = p := by cases l <;> rfl

@[simp] theorem PerLine.set_set {α : Type} (p : PerLine α) (l : LineId) (v w : α) : (p.set l v).set l w = p.set l w := by
  cases l <;> rfl

@[simp] theorem PerLine.get_mapWith {α : Type} (p : PerLine α) (f : LineId → α → α) (l : LineId) :
    (p.mapWith f).get l = f l (p.get l) := by cases l <;> rfl

/-- Two assignments that agree on every line are equal. -/
theorem PerLine.ext_get {α : Type} {p q : PerLine α} (h : ∀ l, p.get l = q.get l) : p = q := by
  obtain ⟨a, b, c, d⟩ := p
  obtain ⟨a', b', c', d'⟩ := q
  simpa [PerLine.get] using And.intro (h .a) (And.intro (h .b) (And.intro (h .c) (h .d)))

/-! ## The transmit enable (R130, R145) -/

/-- It is asserted exactly while the in-flight transaction is in its send phase. -/
theorem Line.transmitEnable_iff (line : Line) :
    line.transmitEnable = true ↔ ∃ t, line.inFlight = some t ∧ t.phase = .send := by
  unfold Line.transmitEnable
  cases line.inFlight <;> simp

@[simp] theorem Line.transmitEnable_rest (supply : Supply) : (Line.rest supply).transmitEnable = false := rfl

/-- With nothing in flight it is released. -/
theorem Line.transmitEnable_none {line : Line} (h : line.inFlight = none) : line.transmitEnable = false := by
  unfold Line.transmitEnable
  rw [h]

/-! ## Pending entries (R126, R127) -/

/-- Every entry of a queue is still there in another, and none has lost SAFETY. -/
def QueueGrows (q r : List PendEntry) : Prop :=
  ∀ x ∈ q, ∃ y ∈ r, y.address = x.address ∧ (x.cls = .safety → y.cls = .safety)

theorem QueueGrows.refl (q : List PendEntry) : QueueGrows q q := fun x hx => ⟨x, hx, rfl, id⟩

theorem QueueGrows.trans {q r w : List PendEntry} (h : QueueGrows q r) (k : QueueGrows r w) : QueueGrows q w := by
  intro x hx
  obtain ⟨y, hy, a, b⟩ := h x hx
  obtain ⟨z, hz, c, d⟩ := k y hy
  exact ⟨z, hz, c.trans a, fun h => d (b h)⟩

theorem placeEntry_grows (q : List PendEntry) (address : Nat) (cls : EntryClass) :
    QueueGrows q (placeEntry q address cls) := by
  intro x hx
  unfold placeEntry
  split
  · refine ⟨_, List.mem_map_of_mem hx, ?_⟩
    split <;> simp_all
  · exact ⟨x, by simp [hx], rfl, id⟩

/-- A placed entry is there, with at least the class called for. -/
theorem placeEntry_has (q : List PendEntry) (address : Nat) (cls : EntryClass) :
    ∃ e ∈ placeEntry q address cls, e.address = address ∧ (cls = .safety → e.cls = .safety) := by
  unfold placeEntry
  split
  · rename_i h
    obtain ⟨e, he, ha⟩ := List.any_eq_true.1 h
    refine ⟨_, List.mem_map_of_mem he, ?_⟩
    have := eq_of_beq ha
    split <;> simp_all
  · exact ⟨⟨address, cls⟩, by simp, rfl, id⟩

/-- Handing changes on touches the queues of the lines alone, and they only grow. -/
theorem handOn_lines (ps : List PanelRec) (es : List AspectEntry) (ls : PerLine Line) (l : LineId) :
    ∃ q, (es.foldl (handOn ps) ls).get l = { ls.get l with queue := q } ∧ QueueGrows (ls.get l).queue q := by
  induction es generalizing ls with
  | nil => exact ⟨_, rfl, QueueGrows.refl _⟩
  | cons e es ih =>
    have one : ∃ q, (handOn ps ls e).get l = { ls.get l with queue := q } ∧ QueueGrows (ls.get l).queue q := by
      unfold handOn
      split
      · rename_i r _
        by_cases hl : l = r.addr.line
        · subst hl
          exact ⟨_, by simp [placeOn]; rfl, placeEntry_grows _ _ _⟩
        · exact ⟨(ls.get l).queue, by simp [placeOn, hl], QueueGrows.refl _⟩
      · exact ⟨_, rfl, QueueGrows.refl _⟩
    obtain ⟨q, h1, h2⟩ := one
    obtain ⟨q', h3, h4⟩ := ih (handOn ps ls e)
    rw [h1] at h3 h4
    exact ⟨q', by rw [List.foldl_cons, h3], h2.trans h4⟩

/-! ## Recomputation and release (R104, R110, R111) -/

/-- The entries a recomputation hands on are the changed ones, in R111's order. -/
theorem downstreamFirst_changed (s u : State) :
    downstreamFirst s.params.gantryCount (changedEntries s.aspects u.aspects) = changesInOrder s u := by
  unfold downstreamFirst changesInOrder changedEntries
  congr 1
  funext g
  generalize s.aspects.zip u.aspects = xs
  induction xs with
  | nil => rfl
  | cons x xs ih =>
    by_cases h : x.1.desired = x.2.desired
    · simpa [h, List.filter_cons] using ih
    · by_cases hg : x.2.panel.gantry = g
      · simpa [h, hg, List.filter_cons] using ih
      · simpa [h, hg, List.filter_cons] using ih

/-- What handing changes on does to each line. -/
theorem handOn_get (ps : List PanelRec) (es : List AspectEntry) (ls : PerLine Line) (l : LineId) :
    (es.foldl (handOn ps) ls).get l
      = { ls.get l with queue := es.foldl (queueAfter ps l) (ls.get l).queue } := by
  induction es generalizing ls with
  | nil => rfl
  | cons e es ih =>
    have one : (handOn ps ls e).get l = { ls.get l with queue := queueAfter ps l (ls.get l).queue e } := by
      unfold handOn queueAfter
      cases h : panelAt ps e.panel.gantry e.panel.panel with
      | none => rfl
      | some r =>
        by_cases hl : l = r.addr.line
        · subst hl
          simp [placeOn]
        · simp [placeOn, hl, Ne.symm hl]
    rw [List.foldl_cons, ih, one]
    rfl

/-- Recomputing hands on what changed, and nothing else of the lines moves (R110, R111). -/
theorem State.resolve_handedOn (s : State) : HandedOn s s.resolve := by
  intro l
  rw [← downstreamFirst_changed]
  exact handOn_get _ _ _ _

theorem panelSettled_iff (s : State) (g l : Nat) :
    panelSettled s g l = true ↔ ∃ r, panelAt s.panels g l = some r ∧ (r.health = .failed
      ∨ ∃ e, entryAt s.aspects ⟨g, l⟩ = some e ∧ r.confirmed = some e.desired) := by
  unfold panelSettled
  cases hp : panelAt s.panels g l with
  | none => simp
  | some r =>
    cases hc : r.confirmed <;> cases he : entryAt s.aspects ⟨g, l⟩ <;> simp [hc]

/-- The records that end are those in RELEASING whose road has settled (R104). -/
theorem released_iff (s : State) (c : Closure) :
    released s c = true ↔ c.state = .releasing ∧ RoadSettled s c := by
  unfold released RoadSettled
  simp only [Bool.and_eq_true, beq_iff_eq, List.all_eq_true, List.mem_filter, List.mem_range, panelSettled_iff, lanesTo,
    Bool.or_eq_true, Closure.covers, decide_eq_true_eq, List.contains_iff_mem]
  refine and_congr_right fun _ => ⟨fun h g l hg hc h1 h2 => ?_, fun h g hg l hl => ?_⟩
  · exact h g ⟨hg, hc⟩ l (List.mem_map.2 ⟨l - 1, List.mem_range.2 (by omega), by omega⟩)
  · have hl' : 1 ≤ l ∧ l ≤ s.params.laneCount := by
      obtain ⟨k, hk, rfl⟩ := List.mem_map.1 hl
      have := List.mem_range.1 hk
      omega
    exact h g l hg.1 hg.2 hl'.1 hl'.2

/-! ## What a change of sources sets off (R66, R68, R110, R111, R104) -/

/-- The reports a change of sources places: those of the releases that settle. -/
theorem State.afterSources_link (s : State) (demand : Bool) :
    ∃ rs : List Report, (s.afterSources demand).link = rs.foldl Link.place s.link := by
  unfold State.afterSources
  split
  · cases demand
    · exact ⟨((s.resolve.closures.filter (released s.resolve)).map (endedReport s.resolve.clock)), rfl⟩
    · exact ⟨(((s.runPlan false none).resolve.closures.filter (released (s.runPlan false none).resolve)).map
        (endedReport (s.runPlan false none).resolve.clock)), rfl⟩
  · exact ⟨[], rfl⟩

theorem State.workClosures_link (s : State) : ∃ rs : List Report, s.workClosures.link = rs.foldl Link.place s.link :=
  ⟨(workTable (s.closureView s.closures) s.closures).2, rfl⟩

/-- Placing one list of reports after another is placing both. -/
theorem Link.placed_trans {k l m : Link} (h : ∃ rs : List Report, l = rs.foldl Link.place k)
    (h' : ∃ rs : List Report, m = rs.foldl Link.place l) : ∃ rs : List Report, m = rs.foldl Link.place k := by
  obtain ⟨rs, rfl⟩ := h
  obtain ⟨rs', rfl⟩ := h'
  exact ⟨rs ++ rs', (List.foldl_append ..).symm⟩

theorem State.afterClosures_link (s : State) (demand : Bool) :
    ∃ rs : List Report, (s.afterClosures demand).link = rs.foldl Link.place s.link := by
  unfold State.afterClosures
  split
  · exact Link.placed_trans s.workClosures_link (State.afterSources_link _ _)
  · exact ⟨[], rfl⟩

/-- A change of sources touches the queues of the lines alone, and they only grow. -/
theorem State.afterSources_lines (s : State) (demand : Bool) (l : LineId) :
    ∃ q, (s.afterSources demand).lines.get l = { s.lines.get l with queue := q } ∧ QueueGrows (s.lines.get l).queue q := by
  unfold State.afterSources
  split
  · cases demand
    · exact handOn_lines _ _ _ _
    · exact handOn_lines _ _ _ _
  · exact ⟨_, rfl, QueueGrows.refl _⟩

theorem State.afterClosures_lines (s : State) (demand : Bool) (l : LineId) :
    ∃ q, (s.afterClosures demand).lines.get l = { s.lines.get l with queue := q }
      ∧ QueueGrows (s.lines.get l).queue q := by
  unfold State.afterClosures
  split
  · exact State.afterSources_lines _ _ _
  · exact ⟨_, rfl, QueueGrows.refl _⟩

/-- A change of sources touches the plan, the aspect table, the queues, the closure table and the link port alone. -/
theorem State.afterSources_frame (s : State) (demand : Bool) :
    { s.afterSources demand with
      plan := s.plan, aspects := s.aspects, lines := s.lines, closures := s.closures, link := s.link } = s := by
  unfold State.afterSources
  split
  · cases demand <;> rfl
  · rfl

/-- A change that reaches the closure unit touches its maps besides. -/
theorem State.afterClosures_frame (s : State) (demand : Bool) :
    { s.afterClosures demand with
      plan := s.plan, aspects := s.aspects, lines := s.lines, closures := s.closures, arrowMap := s.arrowMap,
      crossMap := s.crossMap, link := s.link } = s := by
  unfold State.afterClosures
  split
  · exact congrArg (fun t : State => { t with
      closures := s.closures, arrowMap := s.arrowMap, crossMap := s.crossMap, link := s.link })
      (State.afterSources_frame s.workClosures _)
  · rfl

/-- What a change of sources does while RUNNING, whole (R66, R104, R110, R111). -/
theorem State.afterSources_taken (s : State) (demand : Bool) (hr : s.operating = .running) :
    ∃ ends, (s.afterSources demand).link = ends.foldl Link.place s.link
      ∧ SourcesTaken s (s.afterSources demand) (demand = true) ends := by
  have key : ∀ t : State, { t with plan := s.plan } = s →
      ∃ ends, t.resolve.endReleased.link = ends.foldl Link.place s.link
        ∧ t.resolve.endReleased.aspects = s.aspects.map (State.newEntry { s with plan := t.plan })
        ∧ HandedOn s t.resolve.endReleased ∧ Endings s t.resolve.endReleased ends := by
    intro t ht
    have e : t = { s with plan := t.plan } := by
      rw [← ht]
    rw [e]
    refine ⟨_, rfl, rfl, ?_, released (State.resolve { s with plan := t.plan }), released_iff _, rfl, ?_⟩
    · intro l
      exact State.resolve_handedOn { s with plan := t.plan } l
    · refine List.map_congr_left fun c hc => ?_
      have := (released_iff _ c).1 (List.mem_filter.1 hc).2
      simp only [endedReport, this.1]
      rfl
  unfold State.afterSources
  rw [if_pos hr]
  cases demand
  · obtain ⟨ends, h1, h2, h3, h4⟩ := key s rfl
    exact ⟨ends, h1, fun h => (by cases h), fun _ => rfl, h2, h3, h4⟩
  · obtain ⟨ends, h1, h2, h3, h4⟩ := key (s.runPlan false none) rfl
    exact ⟨ends, h1, fun _ => rfl, fun h => absurd rfl h, h2, h3, h4⟩

/-! ## Panel records (R125, R134) -/

theorem panelOn_some {ps : List PanelRec} {l : LineId} {a : Nat} {r : PanelRec} (h : panelOn ps l a = some r) :
    r ∈ ps ∧ r.addr = ⟨l, a⟩ :=
  ⟨List.mem_of_find?_eq_some h, by simpa using List.find?_some h⟩

/-- A replaced record is found at its line and address, and no other place changes. -/
theorem panelOn_putPanel {ps : List PanelRec} {l : LineId} {a : Nat} {r new : PanelRec} (h : panelOn ps l a = some r)
    (he : new.addr = r.addr) (l' : LineId) (a' : Nat) :
    panelOn (putPanel ps new) l' a' = if (l', a') = (l, a) then some new else panelOn ps l' a' := by
  have hr := panelOn_some h
  rw [hr.2] at he
  by_cases hla : (l', a') = (l, a)
  · obtain ⟨rfl, rfl⟩ := Prod.mk.inj hla
    rw [if_pos rfl]
    clear hr
    induction ps with
    | nil => simp [panelOn] at h
    | cons p ps ih =>
      simp only [putPanel, panelOn, List.map_cons, List.find?_cons, he] at h ih ⊢
      by_cases hp : p.addr = ⟨l', a'⟩
      · simp [hp, he]
      · simp only [hp, beq_eq_false_iff_ne.2 hp, if_false] at h ⊢
        exact ih h
  · rw [if_neg hla]
    have hne : ¬ (⟨l, a⟩ : PanelAddr) = ⟨l', a'⟩ := by
      intro e
      injection e with e1 e2
      exact hla (by rw [e1, e2])
    clear h hr
    induction ps with
    | nil => rfl
    | cons p ps ih =>
      simp only [putPanel, panelOn, List.map_cons, List.find?_cons, he] at ih ⊢
      by_cases hp : p.addr = ⟨l, a⟩
      · simp only [hp, he, if_true, beq_eq_false_iff_ne.2 hne, ih]
      · simp only [hp, if_false, ih]

end Sys2Proof.Machine
end

