-- ==== Sys2Proof/Laws/Closures.lean ====
section
/-! SUPPORT. What the closure unit's work does to a record, said once. -/

namespace Sys2Proof.Machine

open Sys2Proof

theorem OrderKept.refl (c : Closure) : OrderKept c c := rfl

theorem OrderKept.trans {c d e : Closure} (h : OrderKept c d) (k : OrderKept d e) : OrderKept c e := by
  unfold OrderKept at *
  rw [k, h]

/-- What the work of one event may do to a record (R90 to R101): the order stands, the taper list only grows at its end, SLOW
and the creation time stand, an active record stays active, one in CLOSED stays in CLOSED, and one in RELEASING stands whole. -/
structure Advances (c d : Closure) : Prop where
  order : OrderKept c d
  taper : c.taper <+: d.taper
  slow : d.slow = c.slow
  full : d.full = c.full
  active : c.active = true → d.active = true
  closed : d.state = .closed ↔ c.state = .closed
  idle : c.active = false → d = c

theorem Advances.refl (c : Closure) : Advances c c := ⟨rfl, List.prefix_rfl, rfl, rfl, id, Iff.rfl, fun _ => rfl⟩

theorem Advances.trans {c d e : Closure} (h : Advances c d) (k : Advances d e) : Advances c e where
  order := h.order.trans k.order
  taper := h.taper.trans k.taper
  slow := k.slow.trans h.slow
  full := k.full.trans h.full
  active := fun x => k.active (h.active x)
  closed := k.closed.trans h.closed
  idle := fun x => by
    have e1 := h.idle x
    rw [k.idle (by rw [e1]; exact x), e1]

theorem retestDuties_advances (v : ClosureView) (c : Closure) : Advances c (retestDuties v c) := by
  unfold retestDuties
  split
  · refine ⟨rfl, List.prefix_rfl, rfl, rfl, id, Iff.rfl, ?_⟩
    intro h
    rename_i he
    revert h he
    unfold Closure.active Closure.established
    cases c.state <;> simp
  · exact Advances.refl c

theorem returnToArrows_advances (v : ClosureView) (w : Worked) : Advances w.1 (returnToArrows v w).1 := by
  unfold returnToArrows
  split
  · rename_i h
    exact ⟨rfl, List.prefix_rfl, rfl, rfl, fun _ => rfl, by simp [h], fun x => by simp [Closure.active, h] at x⟩
  · exact Advances.refl _

theorem testDuties_advances (v : ClosureView) (c : Closure) : Advances c (testDuties v c).1 := by
  unfold testDuties
  split
  · exact retestDuties_advances v c
  · exact (retestDuties_advances v c).trans (returnToArrows_advances v (retestDuties v c, []))

theorem extendTaper_advances (v : ClosureView) (n : Nat) (w : Worked) (ha : w.1.active = true) :
    Advances w.1 (extendTaper v n w).1 := by
  induction n generalizing w with
  | zero => exact Advances.refl _
  | succ n ih =>
    unfold extendTaper
    split
    · exact Advances.refl _
    · split
      · have h1 : Advances w.1 (joinTaper v w.1) :=
          ⟨rfl, List.prefix_append _ _, rfl, rfl, id, Iff.rfl, fun h => by rw [ha] at h; cases h⟩
        have h2 := returnToArrows_advances v (joinTaper v w.1, w.2)
        exact (h1.trans h2).trans (ih _ (h2.active (h1.active ha)))
      · exact Advances.refl _

theorem leadMarks_advances (v : ClosureView) (c : Closure) (ha : c.active = true) : Advances c (leadMarks v c).1 := by
  have one : ∀ d : Closure, OrderKept c d → d.taper = c.taper → d.slow = c.slow → d.full = c.full → d.state = c.state →
      Advances c d := by
    intro d h1 h2 h3 h4 h5
    exact ⟨h1, h2 ▸ List.prefix_rfl, h3, h4, fun h => by unfold Closure.active at *; rw [h5]; exact h, by rw [h5],
      fun h => by rw [ha] at h; cases h⟩
  unfold leadMarks clearMarks setMarks
  (repeat' split) <;> exact one _ rfl rfl rfl rfl rfl

theorem checkLead_advances (v : ClosureView) (c : Closure) : Advances c (checkLead v c).1 := by
  unfold checkLead
  split
  · rename_i ha
    have h1 := extendTaper_advances v Config.taperCapacity (c, []) ha
    have h2 := leadMarks_advances v _ (h1.active ha)
    dsimp only
    split
    · exact (h1.trans h2).trans
        (returnToArrows_advances v ((extendTaper v Config.taperCapacity (c, [])).andThen (leadMarks v)))
    · exact h1.trans h2
  · exact Advances.refl c

theorem enterArrows_advances (v : ClosureView) (c : Closure) : Advances c (enterArrows v c).1 := by
  unfold enterArrows
  split
  · rename_i h
    exact ⟨rfl, List.prefix_rfl, rfl, rfl, fun _ => rfl, by simp [h.1], fun x => by simp [Closure.active, h.1] at x⟩
  · exact Advances.refl _

theorem enterDwell_advances (v : ClosureView) (c : Closure) : Advances c (enterDwell v c).1 := by
  unfold enterDwell
  split
  · rename_i h
    exact ⟨rfl, List.prefix_rfl, rfl, rfl, fun _ => rfl, by simp [h.1], fun x => by simp [Closure.active, h.1] at x⟩
  · exact Advances.refl _

/-- The work of one event on one record. -/
theorem workClosure_advances (v : ClosureView) (c : Closure) : Advances c (workClosure v c) :=
  ((testDuties_advances v c).trans (checkLead_advances v _)).trans
    ((enterArrows_advances v _).trans (enterDwell_advances v _))

/-- The passes over the table leave each record as its own work leaves it. -/
theorem workTable_closures (v : ClosureView) (cs : List Closure) : (workTable v cs).1 = cs.map (workClosure v) := by
  simp only [workTable, runPass, List.map_map]
  rfl

/-- The records after a change that reaches the closure unit: each stands for one before it, advanced, and only a record in
RELEASING may be gone. -/
theorem State.afterSources_closures (s : State) (demand : Bool) :
    (∀ d ∈ (s.afterSources demand).closures, d ∈ s.closures)
    ∧ ∀ c ∈ s.closures, c.state ≠ .releasing → c ∈ (s.afterSources demand).closures := by
  have key : ∀ t : State, (∀ d ∈ t.endReleased.closures, d ∈ t.closures)
      ∧ ∀ c ∈ t.closures, c.state ≠ .releasing → c ∈ t.endReleased.closures := by
    intro t
    refine ⟨fun d hd => (List.mem_filter.1 hd).1, fun c hc hs => List.mem_filter.2 ⟨hc, ?_⟩⟩
    have : (c.state == .releasing) = false := by
      cases h : c.state <;> simp_all
    simp [released, this]
  unfold State.afterSources
  split
  · cases demand <;> exact key _
  · exact ⟨fun d hd => hd, fun c hc _ => hc⟩

theorem State.afterClosures_closures (s : State) (demand : Bool) :
    (∀ d ∈ (s.afterClosures demand).closures, ∃ c ∈ s.closures, Advances c d)
    ∧ ∀ c ∈ s.closures, c.state ≠ .releasing → ∃ d ∈ (s.afterClosures demand).closures, Advances c d := by
  unfold State.afterClosures
  split
  · obtain ⟨h1, h2⟩ := State.afterSources_closures s.workClosures
      (demand || decide (tapersOf s.workClosures.closures ≠ tapersOf s.closures))
    have hw : s.workClosures.closures = s.closures.map (workClosure (s.closureView s.closures)) := workTable_closures _ _
    refine ⟨fun d hd => ?_, fun c hc hs => ?_⟩
    · have := h1 d hd
      rw [hw] at this
      obtain ⟨c, hc, rfl⟩ := List.mem_map.1 this
      exact ⟨c, hc, workClosure_advances _ _⟩
    · have ha := workClosure_advances (s.closureView s.closures) c
      refine ⟨_, h2 (workClosure (s.closureView s.closures) c) ?_ ?_, ha⟩
      · rw [hw]
        exact List.mem_map.2 ⟨c, hc, rfl⟩
      · have : c.active = true := by
          unfold Closure.active
          cases h : c.state <;> simp_all
        intro hr
        have := ha.active this
        simp [Closure.active, hr] at this
  · exact ⟨fun d hd => ⟨d, hd, Advances.refl d⟩, fun c hc _ => ⟨c, hc, Advances.refl c⟩⟩

end Sys2Proof.Machine
end

