-- ==== Sys2Proof/WellFormed.lean ====
section
/-! DEFINITION. Which commands can be sent at all: the limits the frame and the reply put on a command's operands. A
request whose body has the wrong length or a value out of range IS well formed: the block answers it (R161, R176). -/

namespace Sys2Proof

/-- A frame's body holds 0..240 bytes (R173). -/
def bodyFits (body : Bytes) : Bool := decide (body.length ≤ Config.maxBody)

/-- A closure's id is 1..255 (R86). -/
def idFits (id : Nat) : Bool := decide (1 ≤ id ∧ id ≤ 255)

/-- The operands of a command are ones the wires can carry. -/
def Instr.wf : Instr → Bool
  | .identify _ body | .status _ body | .reset _ body | .mapParams _ body | .mapGantry _ body | .mapSpeeds _ body
  | .mapBands _ body | .start _ body | .stop _ body | .detector _ body | .triggerSet _ body | .triggerEnable _ body
  | .triggerDisable _ body | .triggerRearm _ body | .warningClear _ body | .closureSet _ body | .closureRelease _ body
  | .closureQuery _ body | .operatorCap _ body | .operatorLegend _ body | .gantryQuery _ body | .panelQuery _ body
  | .historyFreeze _ body | .historyRead _ body | .historyResume _ body | .lineQuiesce _ body
  | .lineResume _ body => bodyFits body
  | .unknownKind kind _ body => (requestKindOf kind).isNone && bodyFits body
  | .dwellExpiry id => idFits id
  | .establishLimitExpiry id => idFits id
  | .replyComplete _ chars => chars.length == 7
  | .requestDiscard | .frameDiscard | .framingError | .interByteGapExpiry | .frameSent | .powerOn | .supplyDip
  | .nrstAssert | .nrstRelease | .corridorClockAdvance | .planPeriodExpiry | .refreshDue _ | .transactionStart _
  | .requestSent _ | .replyCharacterTimeout _ | .replyWindowEnd _ | .gapEnd _ | .supplyFallLow _ _
  | .supplyRiseNormal _ _ | .hostCharacterReceived _ | .replyBegun _ => true

end Sys2Proof
end

