-- ==== Sys2Proof/Tests/Slice0.lean ====
section
/-! SUPPORT. Tests: ill-formed commands refused, worked values of the spec, and for every obligation that has hypotheses a
concrete state and operands that meet them, clause by clause. -/

namespace Sys2Proof.Tests

open Sys2Proof Sys2Proof.Machine

/-! ## Small states -/

/-- The part after a reset, its RESTART sent. -/
def quiet : State := { State.reset with link := Link.rest }

/-- A gantry with two lane panels at addresses 1 and 2 of a line. -/
def gantryOn (chainage : Nat) (line : LineId) (message : Option PanelAddr) : GantryRec :=
  ⟨chainage, [⟨line, 1⟩, ⟨line, 2⟩], message⟩

/-- Three gantries of two lanes, one message panel, a set of three speeds, one band. -/
def smallMap : State := { quiet with
  params := { Params.default with gantryCount := 3, laneCount := 2 }
  gantries := [some (gantryOn 0 .a (some ⟨.a, 9⟩)), some (gantryOn 500 .b none), some (gantryOn 1000 .c none)]
  speeds := some [60, 80, 100]
  bands := some [⟨200, 150, 60, 70, 80⟩] }

/-- The same, RUNNING, started with the initial limit 80. -/
def road : State := smallMap.startRun 80

/-- A state with these commands waiting. -/
def sent (s : State) (is : List Instr) : State := { s with pending := is }

/-- The reply FIFO full. -/
def fullFifo : State := { quiet with link := { Link.rest with replies := List.replicate 4 ⟨0x81, 0, [0]⟩ } }

/-- RESET acted on, its reply under way. -/
def resetting : State := { quiet with
  link := { Link.rest with resetPending := true, tx := some ⟨⟨0x83, 5, [0x00]⟩, false, false⟩ } }

/-- NRST low. -/
def held : State := { quiet with nrstLow := true }

/-- A program that warns at gantries 0 to 1 when the band is 1 or more. -/
def prog : Program :=
  ⟨0, 1, .aggregate, ⟨.band, .ge, 1, 0⟩, ⟨.status, .ne, 15, 15⟩, .aThenB, 15, 31, ⟨true, true, true, false⟩, 255, 60⟩

/-- Program 7 holds `prog`, enabled; program 6 holds it disabled. -/
def programmed (s : State) : State := { s with
  programs := ((List.replicate 8 ⟨none, false⟩).set 7 ⟨some prog, true⟩).set 6 ⟨some prog, false⟩ }

/-- Program 7 has fired at gantry 1 and its warning stands there. -/
def warned : State := { programmed road with
  insts := [⟨7, 0, 31, 0, false⟩, ⟨7, 1, 0, 0, true⟩]
  warnings := [⟨1, [7], 70, 60, 3, 0⟩] }

/-- A closure of lane 1 at gantry 1 with the taper gantry 0. -/
def closure (id : Nat) (state : ClosureState) : Closure where
  id := id
  lanes := [1]
  first := 1
  last := 1
  taperCount := 1
  requestedCap := 60
  cap := 60
  dwell := 5
  state := state
  taper := [0]
  full := false
  taperBlocked := false
  taperLost := false
  slow := false
  created := 0
  dwellEntry := if state = .dwell then some 2 else none
  duties := if state = .requested ∨ state = .releasing then [] else [⟨0, 1, .arrow, true⟩]

def closing (state : ClosureState) : State := { road with closures := [closure 255 state] }

/-- Line A with a transaction in flight for its address 1. -/
def talking (phase : Phase) : State := { road with
  lines := { road.lines with
    a := { road.lines.a with mode := .busy, inFlight := some ⟨1, ⟨1, 80, 0⟩, .safety, phase⟩ } } }

/-- The block after a command, and after nothing where it stopped. -/
def after (s : State) (i : Instr) : State :=
  match exec i s with
  | .next t => t
  | .fault _ => State.reset
  | .refused _ => State.reset

theorem quiet_receptive : quiet.receptive := ⟨rfl, rfl, by decide⟩
theorem smallMap_receptive : smallMap.receptive := ⟨rfl, rfl, by decide⟩
theorem road_receptive : road.receptive := ⟨rfl, rfl, by decide⟩
theorem warned_receptive : warned.receptive := ⟨rfl, rfl, by decide⟩
theorem programmed_receptive : (programmed smallMap).receptive ∧ (programmed road).receptive :=
  ⟨⟨rfl, rfl, by decide⟩, rfl, rfl, by decide⟩
theorem closing_receptive (c : ClosureState) : (closing c).receptive := ⟨rfl, rfl, road_receptive.2.2⟩

/-! ## Ill-formed commands are refused -/

theorem test_wf_body_241 : (Instr.status 0 (List.replicate 241 0)).wf = false := by decide +kernel
theorem test_wf_body_240 : (Instr.status 0 (List.replicate 240 0)).wf = true := by decide +kernel
theorem test_wf_unknownKind_known : (Instr.unknownKind 0x02 0 []).wf = false := by decide
theorem test_wf_unknownKind_241 : (Instr.unknownKind 0x80 0 (List.replicate 241 0)).wf = false := by decide +kernel
theorem test_wf_dwell_0 : (Instr.dwellExpiry 0).wf = false := by decide
theorem test_wf_establish_256 : (Instr.establishLimitExpiry 256).wf = false := by decide
theorem test_wf_reply_6 : (Instr.replyComplete .a (List.replicate 6 (.good 0))).wf = false := by decide

/-- No word spells a command, and so none is put in front. -/
theorem test_no_word : decodeTableWord 8 0 = none ∧ (quiet.withFetchWord 8 0).pending = [] := by decide

/-! ## Values the spec works out -/

/-- The catalogued check value of R174's CRC parameters over "123456789" (outside the spec). -/
theorem test_crc16 : crc16 [0x31, 0x32, 0x33, 0x34, 0x35, 0x36, 0x37, 0x38, 0x39] = 0x29B1 := by decide +kernel

/-- The catalogued check value of R178's CRC parameters over "123456789" (outside the spec). -/
theorem test_crc8 : crc8 [0x31, 0x32, 0x33, 0x34, 0x35, 0x36, 0x37, 0x38, 0x39] = 0xF7 := by decide +kernel

/-- 2.9, Smoothing one lane: 1280 and 1056 toward 52 and 50, 1600 toward 180, and the steps 1001, 997, …, 993, 993. -/
theorem test_smooth : smooth 8 (some 1280) 52 = 1056 ∧ smooth 8 (some 1056) 50 = 928 ∧ smooth 4 (some 1600) 180 = 1920
    ∧ smooth 8 (some 1001) 62 = 997 ∧ smooth 8 (some 997) 62 = 995 ∧ smooth 8 (some 995) 62 = 994
    ∧ smooth 8 (some 994) 62 = 993 ∧ smooth 8 (some 993) 62 = 993 := by decide

/-- 2.9, One record at a three-lane gantry: the entries and what they leave. -/
theorem test_detector_lanes :
    List.zipWith (updateLane Params.default)
      [⟨true, some 1280, some 1600, none, none⟩, ⟨true, some 1440, some 1200, none, none⟩,
       ⟨true, some 1600, some 800, none, none⟩]
      ((lanesTo 3).map (laneEntry [0x02, 0x11, 0x03, 0x0E, 0x00, 0xB4, 0x34, 0x00, 0x00, 0x00, 0x28, 0x46, 0x00, 0x09, 0x00,
        0x3C, 0x5F, 0x01])) =
      [⟨true, some 1056, some 1920, some 14, some 0⟩, ⟨true, some 1440, some 1060, some 0, some 0⟩,
       ⟨false, some 1600, some 800, none, none⟩] := by decide +kernel

/-- 4.11, A queue settles into a staircase: rounded demands 120, 120, 120, 100, 60, 80 give the targets of the table. -/
theorem test_staircase :
    sweep [40, 50, 60, 70, 80, 100, 120] 20 ([120, 120, 120, 100, 60, 80].map (fun v => (v, false))) =
      [120, 120, 100, 80, 60, 80] := by decide

/-- 10, Worked frames: SPEED(80) at address 41 answered GOOD, MISMATCH at 100, and a lane echo with legend byte 7. -/
theorem test_judge :
    let t : InFlight := ⟨41, (Aspect.speed 80).bytes, .safety, .receive⟩
    t.request.take 4 = [0x29, 0x01, 0x50, 0x00]
    ∧ judge t 1 (replyChars 41 ⟨0x01, 0x50, 0x00⟩ 0x00 0x0C) = ⟨.good, some (.speed 80), some 0x00, some 12⟩
    ∧ judge t 1 (replyChars 41 ⟨0x01, 0x64, 0x00⟩ 0x00 0x0C) = ⟨.mismatch, some (.speed 100), some 0x00, none⟩
    ∧ judge t 1 (replyChars 41 ⟨0x01, 0x50, 0x07⟩ 0x00 0x0C) = Judged.noReply := by decide +kernel

/-- 10, Worked frames: the DETECTOR body of three lanes asks for length 18, and with a count of 4 for 23. -/
theorem test_detector_length :
    lengthFits .detector ([0x02, 0x11, 0x03] ++ List.replicate 15 0) = true
    ∧ lengthFits .detector ([0x02, 0x11, 0x03] ++ List.replicate 14 0) = false
    ∧ lengthFits .detector ([0x02, 0x11, 0x04] ++ List.replicate 20 0) = true := by decide

/-- 11.3: with lane 1 closed at gantry 5 of three lanes, the arrow of lane 1 at gantry 4 is ARROW_OFF. -/
theorem test_arrow : asksArrow 3 [{ closure 7 .arrows with first := 5, last := 5, taper := [4] }] 4 1
    { closure 7 .arrows with first := 5, last := 5, taper := [4] } = some .off := by decide

/-- R88, R94: a closure below a road that shows more than its cap waits in REQUESTED, and its cap is a demand at once. -/
theorem test_closureSet : (after road (.closureSet 7 [1, 1, 1, 1, 2, 60, 5])).closures.map (·.state) = [.requested]
    ∧ (after road (.closureSet 7 [1, 1, 1, 1, 2, 60, 5])).plan.map (·.shown) = [60, 60, 60] := by decide +kernel

/-- R6, R66: an operator cap takes effect in the request's own run. -/
theorem test_operatorCap : (after road (.operatorCap 7 [60])).plan.map (·.shown) = [60, 60, 60]
    ∧ (after road (.operatorCap 7 [60])).plan.map (·.binding) = [.operator, .operator, .operator] := by decide +kernel

/-- R12: START queues every panel of its line, SAFETY, lanes before the message panel. -/
theorem test_start_queue : road.lines.a.queue = [⟨1, .safety⟩, ⟨2, .safety⟩, ⟨9, .safety⟩] := by decide

/-- R161, R168: an IDENTIFY frame, character by character, is answered. -/
theorem test_wire_identify :
    (match feed (wireOf 0x01 9 0 []) quiet with
     | .next t => t.outgoing.map (fun f => (f.kind, f.tag))
     | _ => []) = [(0x81, 9)] := by decide +kernel

/-! ## Witnesses: the queue, resets and invariants -/

theorem witness_StepRunsTheFrontCommand :
    (sent quiet [.powerOn, .supplyDip]).pending = .powerOn :: [.supplyDip] ∧ quiet.pending = [] := ⟨rfl, rfl⟩

theorem witness_LinkAndHistoryStayBounded :
    LinkBounded fullFifo ∧ HistoryBounded fullFifo ∧ ∃ t, step (sent fullFifo [.requestDiscard]) = .next t :=
  ⟨by unfold LinkBounded; decide, by unfold HistoryBounded; decide, _, rfl⟩

theorem witness_ClosureTableStaysLegal :
    ClosuresLegal (sent (closing .dwell) [.dwellExpiry 255])
    ∧ ∃ t, step (sent (closing .dwell) [.dwellExpiry 255]) = .next t :=
  ⟨by unfold ClosuresLegal; decide, _, rfl⟩

theorem witness_WarningsAndWorkingRecordsStayLegal :
    StoppedIsEmpty warned ∧ WarningsLegal warned ∧ InstsLegal warned
    ∧ ∃ t, step (sent warned [.triggerDisable 0 [7]]) = .next t := by
  refine ⟨(fun h => by cases h), by unfold WarningsLegal; decide, ⟨by decide, ?_⟩, _, rfl⟩
  intro i hi
  simp only [warned, List.mem_cons, List.not_mem_nil, or_false] at hi
  rcases hi with rfl | rfl <;> exact ⟨by decide, prog, by decide⟩

theorem witness_LinesStayLegal :
    PanelsDistinct (talking .wait) ∧ LinesLegal (talking .wait) ∧ QueuesBounded (talking .wait) ∧ CountsLegal (talking .wait)
    ∧ ∃ t, step (sent (talking .wait) [.replyWindowEnd .a]) = .next t := by
  refine ⟨by unfold PanelsDistinct; decide, ?_, ?_, by unfold CountsLegal; decide, _, rfl⟩
  · intro l
    unfold LineLegal
    cases l <;> decide
  · intro l
    cases l <;> decide

theorem witness_TrafficStaysInRange :
    WeightsLegal road ∧ TrafficLegal road ∧ ∃ t, step (sent road [.detector 0 [0, 1, 2]]) = .next t := by
  refine ⟨by unfold WeightsLegal; decide, fun _ => ⟨by decide, ?_⟩, _, rfl⟩
  intro r hr
  have : r = TrafficRec.fresh 2 := List.eq_of_mem_replicate (n := 3) hr
  subst this
  refine ⟨rfl, by decide, by decide, ?_⟩
  intro x hx
  have : x = LaneTraffic.none := List.eq_of_mem_replicate (n := 2) hx
  subst this
  exact ⟨(fun v h => by cases h), (fun v h => by cases h)⟩

theorem witness_SpeedPlanLawsAlwaysHold :
    PanelsDistinct road ∧ MapHeld road ∧ PlanLawful road ∧ nextSigning road 0 1
    ∧ ∃ t, step (sent road [.operatorCap 0 [60]]) = .next t := by
  refine ⟨by unfold PanelsDistinct; decide, ⟨by decide, ?_⟩, fun _ => ⟨by decide, by decide, ?_, by decide⟩, ?_, _, rfl⟩
  · intro set h
    have : set = [60, 80, 100] := (Option.some.inj h).symm
    subst this
    decide
  · have : ∀ g, g < 3 → ∀ h, h < 3 → (road.planAt g).shown ≤ (road.planAt h).shown + 20 := by decide
    intro g h hn
    exact this g (Nat.lt_trans hn.1 hn.2.1) h hn.2.1
  · refine ⟨by decide, by decide, by decide, ?_⟩
    intro m h1 h2
    omega

theorem witness_CrossesAndFailedPanelsStayLawful :
    PanelsDistinct (closing .closed) ∧ ClosuresLegal (closing .closed) ∧ AspectsLawful (closing .closed)
    ∧ ∃ t, step (sent (closing .closed) [.closureRelease 0 [255]]) = .next t := by
  refine ⟨by unfold PanelsDistinct; decide, by unfold ClosuresLegal; decide, fun _ => ⟨(fun e he => by cases he), ?_⟩, _, rfl⟩
  intro e he
  have h1 : ∀ e ∈ (closing .closed).aspects, e.desired ≠ .cross := by decide
  have h2 : ∀ r ∈ (closing .closed).panels, r.health ≠ .failed := by decide
  exact ⟨fun h => absurd h (h1 e he), fun r hr _ hf => absurd hf (h2 r hr)⟩

/-! ## Witnesses: the link -/

theorem witness_WireFrameActsAsItsRequest :
    (List.replicate 240 (0 : Byte)).length ≤ 240 ∧ ([] : Bytes).length ≤ 240 ∧ quiet.link.rx = .hunt
    ∧ quiet.nrstLow = false := by decide +kernel

theorem witness_HostCharacterMovesTheReceiver :
    held.nrstLow = true ∧ quiet.nrstLow = false ∧ quiet.link.rx = .hunt ∧ (0x7E : Byte) = 0x7E ∧ (0x7D : Byte) ≠ 0x7E
    ∧ (quiet.setReceiver (.header [])).link.rx = .header [] ∧ 240 < (241 : Byte).toNat ∧ (240 : Byte).toNat ≤ 240
    ∧ (quiet.setReceiver (.body ⟨1, 2, 3, 4⟩ [])).link.rx = .body ⟨1, 2, 3, 4⟩ []
    ∧ ([] : Bytes).length + 1 = (1 : Byte).toNat ∧ ([] : Bytes).length + 1 < (2 : Byte).toNat
    ∧ (let h : FrameHead := ⟨0, 1, 2, 0⟩
       let good := checkBytes (h.length :: h.kind :: h.tag :: h.flags :: [])
       ∃ f c, [f, c] = good ∧ [f, c + 1] ≠ good ∧ h.kind = RequestKind.code .identify)
    ∧ requestKindOf 0x80 = none :=
  ⟨rfl, rfl, rfl, rfl, by decide, rfl, by decide, by decide, rfl, rfl, by decide,
    ⟨(crc16 [0, 1, 2, 0] >>> 8).setWidth 8, (crc16 [0, 1, 2, 0]).setWidth 8, rfl, by decide +kernel, rfl⟩, by decide⟩

theorem witness_BadFramesAreDiscardedAndCounted :
    quiet.nrstLow = false ∧ quiet.link.rx = .hunt ∧ (quiet.setReceiver (.header [])).link.rx ≠ .hunt := by decide

theorem witness_RequestsAreLostAtAFullFifoOrAfterReset :
    fullFifo.nrstLow = false ∧ fullFifo.link.resetPending = false ∧ 4 ≤ fullFifo.link.replies.length
    ∧ resetting.nrstLow = false ∧ resetting.link.resetPending = true ∧ (List.replicate 240 (0 : Byte)).length ≤ 240 := by
  decide +kernel

theorem witness_UnknownKindIsAnswered :
    quiet.receptive ∧ (0x80 : Byte) ∉ ([0x01, 0x02, 0x03, 0x10, 0x11, 0x12, 0x13, 0x14, 0x15, 0x20, 0x30, 0x31, 0x32, 0x33,
      0x34, 0x40, 0x41, 0x42, 0x50, 0x51, 0x60, 0x61, 0x68, 0x69, 0x6A, 0x70, 0x71] : List Byte) :=
  ⟨quiet_receptive, by decide⟩

theorem witness_MisfitBodyIsAnsweredBadLength :
    quiet.receptive ∧ neededLength .status [0] ≠ some 1 ∧ neededLength .mapSpeeds [] ≠ some 0
    ∧ neededLength .detector ([0x02, 0x11, 0x03] ++ List.replicate 14 0) ≠ some 17 := ⟨quiet_receptive, by decide⟩

/-- A frame under way; a reply, an urgent report or a routine report waiting, or nothing. -/
def sending (replies : List Frame) (urgent routine : List Report) : State := { quiet with
  link := { Link.rest with tx := some ⟨⟨0x81, 1, [0]⟩, false, false⟩, replies := replies, urgent := urgent, routine := routine } }

theorem witness_FrameEndStartsTheOldestWaiting :
    let f : Frame := ⟨0x82, 2, [0]⟩
    let u : Report := .restart 0 .powerOn
    let r : Report := .gantryShown 3
    (∀ s ∈ [sending [f] [u] [r], sending [] [u] [r], sending [] [] [r], sending [] [] []],
      s.nrstLow = false ∧ s.link.tx = some ⟨⟨0x81, 1, [0]⟩, false, false⟩ ∧ s.link.resetPending = false)
    ∧ (sending [f] [u] [r]).link.replies = f :: [] ∧ (sending [] [u] [r]).link.urgent = u :: []
    ∧ (sending [] [] [r]).link.routine = r :: []
    ∧ (∀ s ∈ [{ sending [] [u] [r] with link := { (sending [] [u] [r]).link with resetPending := true } }],
        s.link.resetPending = true ∧ s.link.replies = [] ∧ s.link.tx = some ⟨⟨0x81, 1, [0]⟩, false, false⟩)
    ∧ quiet.nrstLow = false ∧ quiet.link.tx = none ∧ held.nrstLow = true ∧ (sending [] [] []).link.tx ≠ none := by decide

/-- A report queue of so many urgent and so many routine reports, the GANTRY_SHOWN of gantry 3 the oldest routine one. -/
def queued (urgent routine : Nat) : Link := { Link.rest with
  urgent := List.replicate urgent (.restart 0 .powerOn)
  routine := ((.gantryShown 3 : Report) :: (List.range 31).map (fun g => .gantryShown (g + 10))).take routine }

/-- R165, R166: 31 and 32 reports queued, and what an urgent report, a routine one and a GANTRY_SHOWN come to. -/
theorem test_place :
    let w : Report := .warningState 0 .started ⟨1, [7], 70, 60, 3, 0⟩
    let u : Report := .restart 9 .resetPin
    ((queued 30 1).place u = { queued 31 1 with urgent := (queued 30 1).urgent ++ [u] })
    ∧ (queued 30 2).place u = { queued 30 2 with
        urgent := (queued 30 2).urgent ++ [u], routine := [.gantryShown 10], reportsLost := true }
    ∧ (queued 32 0).place u = { queued 32 0 with reportsLost := true }
    ∧ (queued 30 1).place w = { queued 30 1 with routine := [.gantryShown 3, w] }
    ∧ (queued 31 1).place w = { queued 31 1 with reportsLost := true }
    ∧ (queued 31 1).place (.gantryShown 3) = queued 31 1
    ∧ (queued 31 1).place (.gantryShown 4) = { queued 31 1 with reportsLost := true }
    ∧ (queued 30 1).place (.gantryShown 4) = { queued 30 1 with routine := [.gantryShown 3, .gantryShown 4] } := by
  decide +kernel

/-- R177: a RESTART body is 5 bytes, a TRIGGER_FIRED body 14; a two-byte value high byte first, -2 in two's complement. -/
theorem test_report_bodies :
    (reportItems 0 [] (.restart 0x01020304 .hostRequest)) = (0xF0, [1, 2, 3, 4, 3])
    ∧ (reportItems 0 [] (.triggerFired 5 7 1 true (.known (-2)) .unknown .merged)) =
        (0xF1, [0, 0, 0, 5, 7, 1, 1, 2, 0xFF, 0xFE, 1, 0, 0, 2]) := by decide +kernel

theorem witness_ResetIsAnsweredThenTakesEffect :
    quiet.receptive ∧ resetting.nrstLow = false ∧ resetting.link.tx = some ⟨⟨0x83, 5, [0x00]⟩, false, false⟩
    ∧ resetting.link.resetPending = true := ⟨quiet_receptive, rfl, rfl, rfl⟩

theorem witness_SupplyResetsClearEverything : road.nrstLow = false := rfl

theorem witness_NrstHoldsThePartInReset : held.nrstLow = true := rfl

theorem witness_IdentifyAndStatusTellTheirItems : road.receptive := road_receptive

theorem witness_QueriesOnlyRead :
    (closing .dwell).receptive
    ∧ (0 : Byte).toNat < road.params.gantryCount ∧ road.gantry? (0 : Byte).toNat = some (gantryOn 0 .a (some ⟨.a, 9⟩))
    ∧ (gantryOn 0 .a (some ⟨.a, 9⟩)).message = some ⟨.a, 9⟩
    ∧ (gantryOn 0 .a none).lanes[(2 : Byte).toNat - 1]? = some ⟨.a, 2⟩
    ∧ (gantryOn 0 .a none).lanes[(3 : Byte).toNat - 1]? = none ∧ (gantryOn 0 .a none).message = none
    ∧ road.params.gantryCount ≤ (3 : Byte).toNat
    ∧ (255 : Byte) ≠ 0 ∧ closureOf (closing .dwell).closures (255 : Byte).toNat = some (closure 255 .dwell)
    ∧ closureOf (closing .dwell).closures (254 : Byte).toNat = none
    ∧ (-32768 ≤ (-32768 : Int) ∧ (32767 : Int) ≤ 32767) ∧ (∀ n ∈ [1, 8], 1 ≤ n) ∧ encSet 1 [1, 8] = [0x81] :=
  ⟨closing_receptive _, by decide⟩

/-- R84, R107, R147: the section of a panel without record and the plan section in STOPPED, and a closure's record. -/
theorem test_sections :
    panelItems quiet ⟨0, 1⟩ ⟨.c, 126⟩ = [0, 2, 126] ++ List.replicate 26 0
    ∧ planItems quiet 0 = List.replicate 10 0
    ∧ closureItems road.panels (closure 255 .dwell) =
        [255, 1, 1, 1, 1, 60, 60, 5, 2, 1, 0, 0, 0, 0, 0, 0, 1, 0, 0, 0, 2, 1, 0, 1, 0, 1, 1, 1, 0] := by decide +kernel

/-- Two gantries of five lanes with a message panel each, RUNNING: a GANTRY_QUERY that no frame holds whole. -/
def wide : State := State.startRun { smallMap with
  params := { Params.default with gantryCount := 2, laneCount := 5 }
  gantries := [some ⟨0, (lanesTo 5).map (fun l => ⟨.a, l⟩), some ⟨.a, 9⟩⟩,
    some ⟨500, (lanesTo 5).map (fun l => ⟨.b, l⟩), some ⟨.b, 9⟩⟩] } 80

/-- R40, R167, R173: it is answered OK, and its traffic and plan sections stand whole. -/
theorem test_wide_query :
    (gantryQueryEffect [0] wide).2.take 77 = 0x00 :: (wide.encTraffic 0 ++ wide.encPlan 0)
    ∧ (wide.encTraffic 0 ++ wide.encPlan 0).length = 76 := by decide +kernel

/-! ## Witnesses: the map, START and STOP -/

/-- The boundary values pass, and a lane count of 1 fails at field 2. -/
theorem witness_MapParamsReplacesTheParameters :
    smallMap.receptive ∧ smallMap.operating = .stopped
    ∧ (after smallMap (.mapParams 0 [32, 5, 60, 40, 15, 10, 16, 16, 0x13, 0x88, 6, 8, 8, 50, 0x01, 0x2C, 0x02, 0x58])).params =
        ⟨32, 5, 60, 40, 15, 10, 16, 16, 5000, 6, 8, 8, 50, 300, 600⟩
    ∧ (after smallMap (.mapParams 0 [32, 1, 60, 40, 15, 10, 16, 16, 0x13, 0x88, 6, 8, 8, 50, 0x01, 0x2C, 0x02, 0x58])).outgoing =
        [⟨0x90, 0, [0x04, 2]⟩] :=
  ⟨smallMap_receptive, rfl, by decide +kernel, by decide +kernel⟩

theorem witness_MapGantryReplacesTheRecord :
    smallMap.receptive ∧ smallMap.operating = .stopped ∧ (2 : Byte).toNat < smallMap.params.gantryCount
    ∧ (let r : GantryRec := ⟨65535, [⟨.d, 126⟩, ⟨.d, 1⟩], some ⟨.d, 126⟩⟩
       r.lanes.length = smallMap.params.laneCount ∧ 2 ≤ r.lanes.length ∧ r.lanes.length ≤ 5 ∧ r.chainage ≤ 65535
       ∧ (∀ a ∈ r.lanes, 1 ≤ a.address ∧ a.address ≤ 126) ∧ ∀ a ∈ r.message, 1 ≤ a.address ∧ a.address ≤ 126)
    ∧ (let body : Bytes := [2, 0, 0, 2, 3, 126, 3, 127, 1, 3, 126]
       neededLength .mapGantry body = some body.length
       ∧ (after smallMap (.mapGantry 0 body)).outgoing = [⟨0x91, 0, [0x04, 7]⟩]
       ∧ (after smallMap (.mapGantry 0 (body.set 7 126))).outgoing = [⟨0x91, 0, [0x00]⟩]
       ∧ (after smallMap (.mapGantry 0 ((body.set 7 126).set 9 4))).outgoing = [⟨0x91, 0, [0x04, 15]⟩]) :=
  ⟨smallMap_receptive, rfl, by decide, by decide, by decide, by decide +kernel⟩

theorem witness_MapTablesAreReplacedInFull :
    smallMap.receptive ∧ smallMap.operating = .stopped
    ∧ (let values := [20, 130]
       2 ≤ values.length ∧ values.length ≤ 8 ∧ values.Pairwise (· < ·)
       ∧ ∀ v ∈ values, 20 ≤ v ∧ v ≤ 130 ∧ v % 10 = 0)
    ∧ (let bands : List Band := [⟨1000, 1000, 250, 250, 255⟩]
       1 ≤ bands.length ∧ bands.length ≤ 6
       ∧ ∀ b ∈ bands, b.occOn ≤ 1000 ∧ b.occOff ≤ 1000 ∧ b.spdOn ≤ 250 ∧ b.spdOff ≤ 250 ∧ b.limit ≤ 255)
    ∧ neededLength .mapSpeeds [2, 30, 30] = some 3 ∧ neededLength .mapBands [1, 3, 232, 3, 232, 250, 251, 0] = some 8
    ∧ (after smallMap (.mapSpeeds 0 [2, 30, 30])).outgoing = [⟨0x92, 0, [0x04, 3]⟩]
    ∧ (after smallMap (.mapBands 0 [1, 3, 232, 3, 232, 250, 251, 0])).outgoing = [⟨0x93, 0, [0x04, 5]⟩] :=
  ⟨smallMap_receptive, rfl, by decide, by decide, by decide, by decide, by decide +kernel, by decide +kernel⟩

theorem witness_MapIsFrozenWhileRunning :
    road.receptive ∧ road.operating = .running
    ∧ RequestKind.start ∈ [RequestKind.mapParams, .mapGantry, .mapSpeeds, .mapBands, .start]
    ∧ neededLength .start [0] = some 1 ∧ neededLength .mapSpeeds [0] = some 1 := ⟨road_receptive, rfl, by decide⟩

/-- `smallMap` with its three chainages. -/
def spaced (x y z : Nat) : State := { smallMap with
  gantries := [some (gantryOn x .a none), some (gantryOn y .b none), some (gantryOn z .c none)] }

theorem witness_StartRefusesAnInconsistentMap :
    (∀ s ∈ [quiet, { smallMap with params := { smallMap.params with laneCount := 0 } },
        { smallMap with gantries := [none, none, none] }, spaced 0 100 100, spaced 0 100 199],
      s.operating = .stopped ∧ s.gantries.length = s.params.gantryCount)
    ∧ quiet.receptive ∧ ¬ MapConsistent quiet ∧ quiet.params.gantryCount = 0
    ∧ State.gantry? { smallMap with gantries := [none, none, none] } 0 = none
    ∧ (spaced 0 100 100).chainage 0 + 100 ≤ (spaced 0 100 100).chainage 1
    ∧ (spaced 0 100 100).chainage 2 ≤ (spaced 0 100 100).chainage 1
    ∧ (spaced 0 100 199).chainage 1 < (spaced 0 100 199).chainage 2
    ∧ (spaced 0 100 199).chainage 2 < (spaced 0 100 199).chainage 1 + 100 :=
  ⟨by decide, quiet_receptive, fun h => h.1 rfl, by decide⟩

/-- `smallMap` with 33 gantries of two panels on one line. -/
def crowdedOn (line : LineId) : State := { smallMap with
  params := { smallMap.params with gantryCount := 33 }
  gantries := (List.range 33).map (fun g => some ⟨100 * g, [⟨line, 2 * g + 1⟩, ⟨line, 2 * g + 2⟩], none⟩) }

/-- A map that fails each of items 6 to 14 of R10 first, what START names, and the map that passes all. -/
theorem test_start_items :
    (let answers := fun (s : State) (item detail : Byte) =>
       decide ((after s (.start 0 [80])).outgoing = [⟨0x94, 0, [0x05, item, detail]⟩])
     let banded := fun (b : Band) => { smallMap with bands := some [⟨200, 150, 60, 70, 80⟩, b] }
     answers { smallMap with gantries := [some (gantryOn 0 .a none), some (gantryOn 500 .b none), some (gantryOn 1000 .a none)] } 6 2
     && answers (crowdedOn .a) 7 0 && answers (crowdedOn .d) 7 3
     && answers { smallMap with speeds := none } 8 0 && answers { smallMap with bands := none } 9 0
     && answers { smallMap with speeds := some [60, 80, 110] } 10 3
     && answers (banded ⟨200, 150, 60, 70, 70⟩) 11 2 && answers (banded ⟨200, 150, 60, 70, 100⟩) 12 2
     && answers (banded ⟨150, 150, 60, 70, 80⟩) 13 2 && answers (banded ⟨200, 150, 60, 60, 80⟩) 14 2
     && decide ((after (banded ⟨151, 150, 60, 61, 80⟩) (.start 0 [80])).outgoing = [⟨0x94, 0, [0x00]⟩])) = true := by
  decide +kernel

theorem smallMap_consistent : MapConsistent smallMap := by
  refine ⟨by decide, by decide, by decide, ?_, by decide, ?_, by decide, by decide, ?_, ?_⟩
  · intro g hg
    have : ∀ g, g < 2 → smallMap.chainage g + 100 ≤ smallMap.chainage (g + 1) := by decide
    exact this g (by have : g + 1 < 3 := hg; omega)
  · intro l
    cases l <;> decide
  · intro i x y hx hy
    have : ∀ i, i < 3 → ∀ x ∈ smallMap.displayable[i]?, ∀ y ∈ smallMap.displayable[i + 1]?, y ≤ x + 20 := by decide
    have hi : i < 3 := by
      obtain ⟨h, -⟩ := List.getElem?_eq_some_iff.1 hx
      exact h
    exact this i hi x hx y hy
  · intro i b hb
    have hi : i = 0 := by
      obtain ⟨h, -⟩ := List.getElem?_eq_some_iff.1 hb
      exact Nat.lt_one_iff.1 h
    subst hi
    have : b = ⟨200, 150, 60, 70, 80⟩ := (Option.some.inj hb).symm
    subst this
    exact ⟨by decide, by decide, by decide, fun j a h => by omega⟩

/-- The same state meets the last clause of StartRefusesAnInconsistentMap. -/
theorem witness_StartRunsTheCorridor :
    smallMap.receptive ∧ smallMap.operating = .stopped ∧ MapHeld smallMap ∧ MapConsistent smallMap
    ∧ smallMap.gantries.length = smallMap.params.gantryCount := by
  refine ⟨smallMap_receptive, rfl, ⟨by decide, ?_⟩, smallMap_consistent, rfl⟩
  intro set h
  have : set = [60, 80, 100] := (Option.some.inj h).symm
  subst this
  decide

theorem witness_StopEndsTheRun :
    smallMap.receptive ∧ smallMap.operating = .stopped ∧ (closing .closed).receptive ∧ (closing .closed).operating = .running
    ∧ (closing .closed).closures ≠ [] ∧ warned.receptive ∧ warned.operating = .running ∧ warned.closures = []
    ∧ (warned.warnings.map (·.gantry)).Pairwise (· < ·) :=
  ⟨smallMap_receptive, rfl, closing_receptive _, rfl, by decide, warned_receptive, rfl, rfl, by decide⟩

/-! ## Witnesses: traffic -/

theorem witness_DetectorRefusalsChangeNothing :
    smallMap.receptive ∧ smallMap.operating = .stopped ∧ road.receptive ∧ road.operating = .running
    ∧ road.params.gantryCount ≤ (3 : Byte).toNat ∧ (2 : Byte).toNat < road.params.gantryCount
    ∧ (List.replicate 47 (⟨0, 0, 0, 0⟩ : LaneEntry)).length ≠ road.params.laneCount
    ∧ (List.replicate 2 (⟨0, 0, 0, 0⟩ : LaneEntry)).length = road.params.laneCount
    ∧ (State.trafficAt { road with traffic := List.replicate 3 { TrafficRec.fresh 2 with lastSeq := some 255 } } 2).lastSeq =
        some (255 : Byte).toNat
    ∧ (let entries : Bytes := [1, 0, 0, 50, 15, 1, 0, 0, 50, 16]
       entries.length = 5 * road.params.laneCount
       ∧ (after road (.detector 0 ([2, 0, 2] ++ entries))).outgoing = [⟨0xA0, 0, [0x04, 11]⟩]) :=
  ⟨smallMap_receptive, rfl, road_receptive, rfl, by decide, by decide, by decide, by decide, by decide, by decide,
    by decide +kernel⟩

theorem witness_DetectorAppliesTheRecord :
    road.receptive ∧ road.operating = .running ∧ TrafficLegal road ∧ (2 : Byte).toNat < road.params.gantryCount
    ∧ (let lanes : List LaneEntry := [⟨255, 65535, 255, 15⟩, ⟨0, 0, 0, 0⟩]
       lanes.length = road.params.laneCount ∧ lanes.length ≤ 5
       ∧ ∀ e ∈ lanes, e.count ≤ 255 ∧ e.occ ≤ 65535 ∧ e.speed ≤ 255)
    ∧ (road.trafficAt (2 : Byte).toNat).lastSeq ≠ some (0 : Byte).toNat
    ∧ warned.receptive ∧ TrafficLegal warned ∧ WarningsLegal warned ∧ InstsLegal warned :=
  ⟨road_receptive, rfl, witness_TrafficStaysInRange.2.1, by decide, by decide, by decide, warned_receptive,
    witness_TrafficStaysInRange.2.1, witness_WarningsAndWorkingRecordsStayLegal.2.1,
    witness_WarningsAndWorkingRecordsStayLegal.2.2.1⟩

/-- R58, R59: q false takes one from the hold of the warning at gantry 1, and ends it at 0 with its report. -/
theorem test_hold :
    (after warned (.detector 0 [1, 5, 2, 1, 0, 0, 90, 0, 1, 0, 0, 90, 0])).warnings.map (·.hold) = [2]
    ∧ (after { warned with warnings := [⟨1, [7], 70, 60, 1, 0⟩] } (.detector 0 [1, 5, 2, 1, 0, 0, 90, 0, 1, 0, 0, 90, 0])).link.routine =
        [.warningState 0 (.ended .holdExpired) ⟨1, [7], 70, 60, 1, 0⟩] := by decide +kernel

theorem witness_LaneUpdateFollowsTheFlags :
    (1 : LaneFlags).getLsbD 0 = true ∧ (14 : LaneFlags).getLsbD 0 = false ∧ LaneTraffic.none.occ = none
    ∧ LaneTraffic.none.speed = none ∧ (⟨true, some 0, some 0, none, none⟩ : LaneTraffic).occ = some 0 := by decide

theorem witness_SmoothingStaysBetweenTheOldAndTheReading :
    (1 ≤ 16 ∧ 16 ≤ 16 ∧ (250 : Nat) ≤ 250 ∧ 4000 ≤ 4000) ∧ smooth 1 (some 15) 0 = 15 ∧ smooth 1 (some 1) 1 = 1 := by decide

theorem witness_BandRisesAtOnceAndFallsByOne :
    let bands : List Band := [⟨150, 110, 70, 80, 100⟩, ⟨220, 170, 50, 60, 80⟩]
    reclass bands 0 (some 220) none = 2 ∧ reclass bands 2 (some 0) (some 255) = 1 ∧ reclass bands 2 (some 170) (some 255) = 2
    ∧ reclass bands 2 (some 0) (some 60) = 2 := by decide

/-! ## Witnesses: triggers and warnings -/

theorem witness_TriggerSetWritesTheProgram :
    (programmed smallMap).receptive ∧ ProgramLegal prog ∧ 7 < (8 : Byte).toNat ∧ (7 : Byte).toNat ≤ 7
    ∧ ((programmed smallMap).slot (7 : Byte).toNat).enabled = true
    ∧ ((programmed smallMap).slot (6 : Byte).toNat).enabled = false
    ∧ (let body := programBody 6 prog 0 0 0
       (after (programmed smallMap) (.triggerSet 0 (body.set 19 61))).outgoing = [⟨0xB0, 0, [0x04, 18]⟩]
       ∧ (after (programmed smallMap) (.triggerSet 0 (body.set 6 0x80))).outgoing = [⟨0xB0, 0, [0x04, 7]⟩]
       ∧ (after (programmed smallMap) (.triggerSet 0 (body.set 17 8))).outgoing = [⟨0xB0, 0, [0x04, 16]⟩]) := by
  exact ⟨programmed_receptive.1, ⟨by decide, by decide, trivial, by unfold ComparatorLegal; decide,
    by unfold ComparatorLegal; decide, by decide, by decide, by decide, by decide⟩, by decide, by decide, by decide,
    by decide, by decide +kernel⟩

theorem witness_TriggerEnableCreatesWorkingRecords :
    (programmed smallMap).receptive ∧ (programmed road).receptive ∧ 7 < (8 : Byte).toNat
    ∧ ((programmed smallMap).slot (5 : Byte).toNat).fields = none
    ∧ ((programmed smallMap).slot (7 : Byte).toNat).fields = some prog
    ∧ ((programmed smallMap).slot (7 : Byte).toNat).enabled = true
    ∧ ((programmed smallMap).slot (6 : Byte).toNat).fields = some prog
    ∧ ((programmed smallMap).slot (6 : Byte).toNat).enabled = false ∧ (programmed smallMap).operating = .stopped
    ∧ (programmed road).operating = .running ∧ ((programmed road).slot (6 : Byte).toNat).enabled = false :=
  ⟨programmed_receptive.1, programmed_receptive.2, by decide⟩

theorem witness_TriggerDisableLeavesTheWarnings :
    warned.receptive ∧ WarningsLegal warned ∧ 7 < (8 : Byte).toNat ∧ (warned.slot (6 : Byte).toNat).enabled = false
    ∧ (warned.slot (7 : Byte).toNat).enabled = true :=
  ⟨warned_receptive, witness_WarningsAndWorkingRecordsStayLegal.2.1, by decide⟩

/-- Programs 6 and 7 own two warnings, one whose hold stands above that of program 6 and one whose hold does not. -/
def shared : State := { warned with
  programs := ((List.replicate 8 ⟨none, false⟩).set 7 ⟨some prog, true⟩).set 6 ⟨some { prog with warnHold := 5 }, true⟩
  warnings := [⟨0, [6, 7], 70, 60, 60, 4⟩, ⟨1, [6, 7], 70, 60, 3, 0⟩] }

/-- R43: the warnings that keep program 6; the hold is lowered only where it stood above the new largest. -/
theorem witness_TriggerDisableLeavesTheWarnings_kept :
    shared.receptive ∧ WarningsLegal shared ∧ (shared.slot (7 : Byte).toNat).enabled = true
    ∧ (∀ v ∈ shared.warnings, (7 : Byte).toNat ∈ v.owners)
    ∧ (after shared (.triggerDisable 0 [7])).warnings.map (fun w => (w.gantry, w.owners, w.hold, w.start)) =
        [(0, [6], 5, 4), (1, [6], 3, 0)] :=
  ⟨warned_receptive, by unfold WarningsLegal; decide, by decide, by decide, by decide +kernel⟩

theorem witness_TriggerRearmReturnsFiredToIdle :
    warned.receptive ∧ 7 < (8 : Byte).toNat ∧ (warned.slot (7 : Byte).toNat).fields = some prog
    ∧ ∀ i ∈ warned.insts, i.program = (6 : Byte).toNat → i.fired = false := ⟨warned_receptive, by decide⟩

theorem witness_WarningClearEndsTheWarning :
    warned.receptive ∧ WarningsLegal warned ∧ warned.params.gantryCount ≤ (3 : Byte).toNat
    ∧ (2 : Byte).toNat < warned.params.gantryCount ∧ (∀ w ∈ warned.warnings, w.gantry ≠ (2 : Byte).toNat)
    ∧ ∃ w ∈ warned.warnings, w.gantry = (1 : Byte).toNat :=
  ⟨warned_receptive, witness_WarningsAndWorkingRecordsStayLegal.2.1, by decide⟩

/-- Disarmed and armed windows, and the three results of B; a masked comparison; DSPEED past an absent gantry. -/
theorem witness_QualifyingOutcomeFollowsTheTables :
    qualify .aThenB 3 0 (some true) none = (some false, 3) ∧ qualify .aThenB 3 1 none (some true) = (some true, 1)
    ∧ qualify .aThenB 3 1 none (some false) = (some false, 0) ∧ qualify .aThenB 3 2 none none = (none, 1)
    ∧ Machine.compare ⟨.status, .eq, 2, 2⟩ (some 6) = some true
    ∧ Machine.compare ⟨.speed, .ge, 300, 0⟩ (some 250) = some false
    ∧ (let t := TrafficRec.fresh 2
       State.fieldValue { road with traffic :=
         [{ t with absent := false, aggSpeed := some 70 }, t, { t with absent := false, aggSpeed := some 30 }] }
         .aggregate 0 .dspeed = some 40) := by decide

theorem witness_CountingAndFiring :
    (⟨7, 1, 0, 0, true⟩ : TrigInst).fired = true ∧ (⟨7, 1, 0, 0, false⟩ : TrigInst).fired = false
    ∧ (⟨7, 1, 0, 0, false⟩ : TrigInst).counter = 0 ∧ 0 < (⟨7, 1, 1, 0, false⟩ : TrigInst).counter
    ∧ prog.actions.rearm = false ∧ ({ prog.actions with rearm := true } : Actions).rearm = true := by decide

/-- `warned` with sixteen warnings, at gantries 1 and 10 to 24. -/
def crowded : State := { warned with
  warnings := warned.warnings ++ (List.range 15).map (fun g => ⟨g + 10, [7], 70, 60, 3, 0⟩) }

theorem witness_WarnPlacesMergesOrFails :
    WarningsLegal warned ∧ warned.enabledProgram 7 = some prog ∧ (∃ w ∈ warned.warnings, w.gantry = 1)
    ∧ (∀ w ∈ warned.warnings, w.gantry ≠ 0) ∧ warned.warnings.length < 16
    ∧ WarningsLegal crowded ∧ (∀ w ∈ crowded.warnings, w.gantry ≠ 0) ∧ 16 ≤ crowded.warnings.length :=
  ⟨witness_WarningsAndWorkingRecordsStayLegal.2.1, by decide, by decide, by decide, by decide,
    by unfold WarningsLegal; decide, by decide⟩

/-! ## Witnesses: the plan -/

theorem witness_OperatorCapIsStoredAndBinds :
    road.receptive ∧ smallMap.receptive ∧ (0 : Byte).toNat = road.operatorCap ∧ (255 : Byte).toNat ≠ smallMap.operatorCap
    ∧ smallMap.operating = .stopped ∧ (255 : Byte).toNat ≠ road.operatorCap ∧ road.operating = .running :=
  ⟨road_receptive, smallMap_receptive, by decide⟩

/-- A road of which one gantry is about to become absent. -/
theorem witness_PlanPeriodAgesAndRuns :
    let s : State := { road with planTimer := 10, traffic := [TrafficRec.fresh 2, { TrafficRec.fresh 2 with age := 2 }] }
    s.operating = .running ∧ s.params.planPeriod ≤ s.planTimer ∧ smallMap.operating = .stopped
    ∧ (State.planTimer { road with planTimer := 9 }) < road.params.planPeriod
    ∧ s.traffic[1]? = some { TrafficRec.fresh 2 with age := 2 } ∧ 2 + 1 = s.params.staleLimit := by decide

theorem witness_RunsRaiseOneStepAndOnlyOnTime :
    (∃ r, (road.planRun true none)[2]? = some r) ∧ (80 ∈ [60, 80, 100] ∧ 60 < 80 ∧ 3 ≤ 2 + 1)
    ∧ nextSigning road 0 1 ∧ (∀ h, ¬ nextSigning road 2 h)
    ∧ ∃ below, (road.planRun true none)[1]? = some below ∧ below.target = 100 ∧ below.shown = 80
        ∧ 100 ∈ road.displayable ∧ 100 ≤ 80 + road.params.maxDrop ∧ ∀ m ∈ road.displayable, m ≤ 100 := by
  refine ⟨⟨_, rfl⟩, by decide, witness_SpeedPlanLawsAlwaysHold.2.2.2.1, ?_, _, rfl, by decide⟩
  intro h hn
  have := hn.2.1
  have : h < 3 := this
  have := hn.1
  omega

/-- Each source binding in turn, and the floor clamp. -/
theorem witness_DemandIsTheLowestAndIsRounded :
    (let bindings := fun (s : State) (initial : Option Nat) => (s.planRun false initial).map (fun r => (r.demand, r.binding))
     bindings { road with operatorCap := 60 } none = [(60, .operator), (60, .operator), (60, .operator)]
     ∧ bindings (closing .closed) none = [(60, .closure 255), (60, .closure 255), (100, .maximum)]
     ∧ bindings warned none = [(100, .maximum), (70, .warning), (100, .maximum)]
     ∧ bindings { road with traffic := [{ TrafficRec.fresh 2 with band := 1 }] } (some 90) =
        [(80, .congestion), (90, .initial), (90, .initial)])
    ∧ (State.trafficAt { road with traffic := [{ TrafficRec.fresh 2 with band := 1 }] } 0).band ≤ (road.bands.getD []).length
    ∧ ((closing .closed).closures.map (·.id)).Pairwise (· < ·)
    ∧ (∃ r, (warned.planRun false none)[1]? = some r ∧ r.clamped = false)
    ∧ ∃ r, (State.planRun { road with operatorCap := 59 } false none)[2]? = some r ∧ r.clamped = true
        ∧ ∀ m ∈ road.displayable, r.demand < m :=
  ⟨by decide, by decide, by decide, ⟨_, rfl, by decide⟩, _, rfl, by decide, by decide⟩

/-! ## Witnesses: closures and aspects -/

/-- `road` with eight closures. -/
def eight : State := { road with closures := (List.range 8).map (fun n => closure (n + 1) .releasing) }

theorem witness_ClosureSetRefusesOrMakesTheRecord :
    smallMap.receptive ∧ smallMap.operating = .stopped ∧ road.receptive ∧ road.operating = .running
    ∧ (∃ c ∈ (closing .closed).closures, c.id = (255 : Byte).toNat)
    ∧ (∀ c ∈ eight.closures, c.id ≠ (255 : Byte).toNat) ∧ 8 ≤ eight.closures.length
    ∧ ClosuresLegal road ∧ (after road (.closureSet 0 [255, 3, 1, 1, 2, 255, 120])).closures.length = 1
    ∧ (after road (.closureSet 0 [255, 4, 1, 1, 2, 255, 120])).outgoing = [⟨0xC0, 0, [0x04, 2]⟩] :=
  ⟨smallMap_receptive, rfl, road_receptive, rfl, by decide, by decide, by decide, by unfold ClosuresLegal; decide,
    by decide +kernel, by decide +kernel⟩

/-- Every panel of a state confirms this aspect. -/
def showing (a : Aspect) (s : State) : State := { s with panels := s.panels.map (fun r => { r with confirmed := some a }) }

/-- R104: a road that has settled, and one that has not. -/
theorem test_release_code :
    (after (closing .closed) (.closureRelease 0 [255])).outgoing = [⟨0xC1, 0, [0x00, 4]⟩]
    ∧ (after (showing (.speed 60) (closing .closed)) (.closureRelease 0 [255])).outgoing = [⟨0xC1, 0, [0x00, 4]⟩]
    ∧ (after (showing (.speed 80) (closing .closed)) (.closureRelease 0 [255])).outgoing = [⟨0xC1, 0, [0x00, 5]⟩] := by
  decide +kernel

/-- R89, R96, R101: with every taper panel FAILED a new closure at gantry 1 reports CREATED, then its mark, then its
transition. -/
theorem test_blocked_reports :
    let failed := fun (s : State) => { s with panels := s.panels.map (fun r => { r with health := .failed }) }
    let told := fun (s : State) => s.link.urgent.filterMap (fun r => match r with
      | .closureState _ e _ now c => some (c.id, e, now)
      | _ => none)
    told (after (failed road) (.closureSet 0 [9, 1, 1, 1, 1, 60, 5])) =
      [(9, .created, some .requested), (9, .markSet .taperBlocked, some .requested), (9, .state, some .arrows)] := by
  decide +kernel

theorem witness_ClosureReleaseEndsOrReleases :
    (∀ c, (closing c).receptive) ∧ (∀ c, (closing c).operating = .running)
    ∧ (∀ c ∈ [ClosureState.requested, .arrows, .dwell, .closed, .releasing], ClosuresLegal (closing c))
    ∧ (∀ c ∈ (closing .closed).closures, c.id ≠ (254 : Byte).toNat)
    ∧ (∀ c ∈ (closing .closed).closures, c.id = (255 : Byte).toNat) := by
  refine ⟨closing_receptive, fun _ => rfl, ?_, by decide, by decide⟩
  unfold ClosuresLegal
  decide

theorem witness_ClosureTimersExpire :
    let due : State := { closing .dwell with clock := 8 }
    let early : State := { closing .dwell with clock := 7 }
    let late : State := { closing .arrows with clock := 120 }
    (∀ s ∈ [due, early, late], s.operating = .running ∧ ∀ c ∈ s.closures, c.id = 255)
    ∧ smallMap.operating = .stopped
    ∧ ClosuresLegal due ∧ ClosuresLegal early ∧ ClosuresLegal late
    ∧ (closure 255 .dwell).dwellEntry = some 2 ∧ 5 + 1 ≤ (due.clock - 2).toNat ∧ (early.clock - 2).toNat < 5 + 1
    ∧ (closure 255 .arrows).slow = false ∧ late.params.establishLimit ≤ (late.clock - 0).toNat
    ∧ (∀ d ∈ late.closures, d.state ≠ .dwell) ∧ (due.clock - 0).toNat < due.params.establishLimit := by
  refine ⟨by decide, rfl, ?_, ?_, ?_, by decide⟩ <;> unfold ClosuresLegal <;> decide

/-- R97: two dwell timers that run out at one advance are one event, the reports in rising id. -/
theorem test_dwell_together :
    (let s := { road with closures := [closure 7 .dwell, closure 255 .dwell], clock := 8 }
     (after s (.dwellExpiry 255)).closures.map (·.state) = [.closed, .closed]
     ∧ (after s (.dwellExpiry 255)).link.urgent =
        [.closureState 8 .state .dwell (some .closed) { closure 255 .dwell with state := .closed }]
     ∧ after s (.dwellExpiry 7) = after s (.dwellExpiry 255)) := by decide +kernel

/-- Of three lanes, lane 2 closed has lanes 1 and 3 equally near: the arrow points toward lane 1. -/
theorem witness_ArrowsPointToTheNearestExit :
    let c := { closure 7 .arrows with lanes := [2] }
    let all := { closure 7 .arrows with lanes := [1, 2, 3] }
    let other := { closure 8 .closed with first := 0, lanes := [2] }
    dutyKind 3 [c] c 0 2 = .arrow ∧ asksArrow 3 [c] 0 2 c = some .near ∧ dutyKind 3 [all] all 0 2 = .capped
    ∧ dutyKind 3 [c, other] c 0 2 = .none ∧ arrowEntry 3 [c] 0 2 = some ⟨0, 2, .near, 7⟩ ∧ arrowEntry 3 [c] 0 1 = none := by
  decide

theorem witness_DesiredAspectsFollowTheirPriority :
    road.panelFailed ⟨0, 1⟩ = false
    ∧ State.panelFailed { road with panels := road.panels.map (fun r => { r with health := .failed }) } ⟨0, 1⟩ = true
    ∧ crossAt [⟨0, 1, 255⟩] 0 1 = some ⟨0, 1, 255⟩ ∧ crossAt road.crossMap 0 1 = none
    ∧ arrowAt [⟨0, 1, .near, 255⟩] 0 1 = some ⟨0, 1, .near, 255⟩ ∧ arrowAt road.arrowMap 0 1 = none
    ∧ (closing .dwell).sourceOf ⟨0, 0⟩ = (.message 3 true, .closure 255)
    ∧ State.sourceOf { closing .dwell with closures := [{ closure 255 .dwell with full := true }] } ⟨0, 0⟩ =
        (.message 4 true, .closure 255)
    ∧ warned.sourceOf ⟨0, 0⟩ = (.message 1 true, .warning)
    ∧ State.sourceOf { road with legends := [15] } ⟨0, 0⟩ = (.message 15 false, .operator)
    ∧ State.sourceOf { road with traffic := [TrafficRec.fresh 2, { TrafficRec.fresh 2 with band := 2 }] } ⟨0, 0⟩ =
        (.message 2 false, .plan)
    ∧ road.sourceOf ⟨0, 0⟩ = (.message 0 false, .plan) := by decide

theorem witness_RestrictivenessClassesPendingEntries :
    5 ≤ 15 ∧ (∀ e ∈ [(⟨2, .routine⟩ : PendEntry)], e.address ≠ 1) ∧ (∃ e ∈ [(⟨1, .routine⟩ : PendEntry)], e.address = 1) := by
  decide

theorem witness_OperatorLegendIsStored :
    road.receptive ∧ smallMap.receptive ∧ (0 : Byte).toNat < road.params.gantryCount
    ∧ (road.gantry? (0 : Byte).toNat).any (·.message.isSome) = true
    ∧ (road.gantry? (1 : Byte).toNat).any (·.message.isSome) = false
    ∧ (5 ≤ (5 : Byte).toNat ∧ (15 : Byte).toNat ≤ 15 ∧ ¬ 5 ≤ (4 : Byte).toNat ∧ ¬ (16 : Byte).toNat ≤ 15)
    ∧ (0 : Byte).toNat = road.legendAt 0 ∧ (5 : Byte).toNat ≠ smallMap.legendAt 0 ∧ smallMap.operating = .stopped
    ∧ road.operating = .running := ⟨road_receptive, smallMap_receptive, by decide⟩

/-! ## Witnesses: time, lines and history -/

theorem witness_TimeAdvancesAndRefreshesQueue :
    smallMap.operating = .stopped ∧ road.operating = .running
    ∧ (after { road with clock := 60, lines := smallMap.lines } (.refreshDue .a)).lines.a.queue =
        [⟨1, .routine⟩, ⟨2, .routine⟩, ⟨9, .routine⟩] := by decide

theorem witness_TransactionsStartTheOldestEntry :
    road.operating = .running ∧ (road.lines.get .a).mode = .idle ∧ (road.lines.get .a).supply = .normal
    ∧ (road.lines.get .a).queue = [] ++ ⟨1, .safety⟩ :: [⟨2, .safety⟩, ⟨9, .safety⟩]
    ∧ panelOn road.panels .a 1 = some (PanelRec.fresh ⟨0, 1⟩ ⟨.a, 1⟩) ∧ road.desiredOf ⟨0, 1⟩ = some (.speed 80)
    ∧ (∀ x ∈ [(⟨2, .routine⟩ : PendEntry)], x.cls = .routine)
    ∧ smallMap.operating = .stopped ∧ ((talking .send).lines.get .a).mode ≠ .idle ∧ (road.lines.get .d).queue = []
    ∧ ((talking .send).lines.get .a).inFlight = some ⟨1, ⟨1, 80, 0⟩, .safety, .send⟩
    ∧ ((talking .wait).lines.get .a).inFlight = some ⟨1, ⟨1, 80, 0⟩, .safety, .wait⟩
    ∧ (road.lines.get .a).inFlight = none ∧ 15 ≤ 15 := by decide

/-- R130, R145: the transmit enable of line A over a transaction, and after a reset in its send phase. -/
theorem test_transmitEnable :
    let on := fun (s : State) => (s.lines.get .a).transmitEnable
    on road = false ∧ on (after road (.transactionStart .a)) = true
    ∧ on (after (after road (.transactionStart .a)) (.requestSent .a)) = false
    ∧ on (after (talking .wait) (.replyBegun .a)) = false ∧ on (talking .send) = true
    ∧ on (after (talking .send) .nrstAssert) = false ∧ on (after (talking .send) .powerOn) = false := by decide +kernel

/-- A reply that echoes what was sent, and one that does not. -/
theorem witness_ReadableRepliesConfirm :
    ((talking .receive).lines.get .a).inFlight = some ⟨1, ⟨1, 80, 0⟩, .safety, .receive⟩
    ∧ panelOn (talking .receive).panels .a 1 = some (PanelRec.fresh ⟨0, 1⟩ ⟨.a, 1⟩)
    ∧ decodeAspect 1 ⟨1, 80, 0⟩ = some (.speed 80) ∧ decodeAspect 1 ⟨1, 100, 0⟩ = some (.speed 100)
    ∧ decodeAspect 1 ⟨5, 0, 0⟩ = none ∧ decodeAspect 1 ⟨4, 1, 0⟩ = none ∧ decodeAspect 1 ⟨4, 0, 1⟩ = none
    ∧ decodeAspect 1 ⟨8, 0, 0⟩ = none ∧ decodeAspect 0 ⟨8, 0, 0x8F⟩ = some (.message 15 true)
    ∧ decodeAspect 0 ⟨8, 0, 0x10⟩ = none ∧ decodeAspect 0 ⟨8, 1, 0⟩ = none ∧ decodeAspect 0 ⟨1, 0, 0⟩ = none := by decide

theorem witness_SilentPanelsCountFailures :
    (road.lines.get .a).inFlight = none
    ∧ ((talking .wait).lines.get .a).inFlight = some ⟨1, ⟨1, 80, 0⟩, .safety, .wait⟩
    ∧ ((talking .receive).lines.get .a).inFlight = some ⟨1, ⟨1, 80, 0⟩, .safety, .receive⟩
    ∧ panelOn (talking .wait).panels .a 1 = some (PanelRec.fresh ⟨0, 1⟩ ⟨.a, 1⟩)
    ∧ panelOn (State.panels { talking .wait with panels := [] }) .a 1 = none
    ∧ Unreadable 1 1 [.framingError] := by
  refine ⟨by decide, by decide, by decide, by decide, rfl, ?_⟩
  intro b fault pixel h
  exact absurd (congrArg List.length h) (by simp [replyChars])

theorem witness_LinesQuiesceAndResume :
    road.receptive ∧ 3 < (4 : Byte).toNat ∧ (3 : Byte).toNat = 3
    ∧ ({ Line.rest .normal with mode := .gap } : Line).mode = .gap ∧ (Line.rest .normal).mode ≠ .gap :=
  ⟨road_receptive, by decide⟩

theorem witness_SupplyCrossesWithHysteresis :
    road.nrstLow = false ∧ (road.lines.get .a).supply = .normal ∧ 18999 < 19000 ∧ 19000 ≤ 19000
    ∧ (Line.rest .low).supply = .low ∧ 20500 < 20501 ∧ 20500 ≤ 20500 := by decide

theorem witness_HistoryFreezesReadsAndResumes :
    quiet.receptive ∧ quiet.history.frozen = none ∧ 1 ≤ (1 : Byte).toNat ∧ (8 : Byte).toNat ≤ 8 ∧ ¬ (9 : Byte).toNat ≤ 8
    ∧ ({ History.empty with frozen := some ⟨0, .trigger 7 31⟩ } : History).frozen = some ⟨0, .trigger 7 31⟩ :=
  ⟨quiet_receptive, by decide⟩

end Sys2Proof.Tests
end

section
/-! The moves of the blocks, said once: what a step can do to the state, the link port and the waiting commands aside. An
invariant that reads neither is kept by every step where each move keeps it. -/

namespace Sys2Proof.Machine

open Sys2Proof

/-! ## The link port set aside -/

theorem State.transmit_eq (s : State) : ∃ l, s.transmit = { s with link := l } := by
  unfold State.transmit
  split
  · exact ⟨s.link, rfl⟩
  · exact ⟨_, rfl⟩

/-! ## The moves -/

/-- What one command does to the blocks: the effects of the requests, then the events of time, of the lines and of the pins.
A move of the link port alone is `stays`. -/
inductive BlockMove (s : State) : State → Prop where
  | stays : BlockMove s s
  | mapParams (p : Params) : s.operating = .stopped → firstBad (paramFields p) = none →
      BlockMove s { s with gantries := resizeTable s.params p s.gantries, params := p }
  | mapGantry (g : Nat) (r : GantryRec) : s.operating = .stopped →
      BlockMove s { s with gantries := s.gantries.set g (some r) }
  | mapSpeeds (b : Bytes) : s.operating = .stopped →
      firstBad ((1, within 2 8 (u8At b 0)) :: speedFields 2 none (speedsAt b)) = none →
      BlockMove s { s with speeds := some (speedsAt b) }
  | mapBands (bands : List Band) : s.operating = .stopped → BlockMove s { s with bands := some bands }
  | start (initial : Nat) : s.operating = .stopped → s.mapFault = none → BlockMove s (s.startRun initial)
  | stop : s.operating = .running → s.closures = [] → BlockMove s s.stopBlocks
  | detector (b : Bytes) : s.operating = .running → firstBad (detectorFields s b) = none →
      BlockMove s (s.applyDetector b)
  | triggerSet (p : Nat) (prog : Program) : (s.slot p).enabled = false → BlockMove s (s.setSlot p ⟨some prog, false⟩)
  | enableStopped (p : Nat) (prog : Program) : s.operating = .stopped → (s.slot p).fields = some prog →
      (s.slot p).enabled = false → BlockMove s (s.setSlot p ⟨some prog, true⟩)
  | enableRunning (p : Nat) (prog : Program) : s.operating = .running → p < 8 → (s.slot p).fields = some prog →
      (s.slot p).enabled = false →
      BlockMove s { s.setSlot p ⟨some prog, true⟩ with insts := s.insts ++ newInsts s.params.gantryCount p prog }
  | disableQuiet (p : Nat) : warningDemands (s.disableProgram p).warnings = warningDemands s.warnings →
      BlockMove s (s.disableProgram p)
  | disable (p : Nat) : BlockMove s ((s.disableProgram p).afterSources true)
  | rearm (p : Nat) : BlockMove s { s with insts := s.insts.map (rearmInst p (s.presetOf p)) }
  | warningClear (w : Warning) : BlockMove s ((s.endWarning w .cleared).afterSources true)
  | closureSet (b : Bytes) : s.operating = .running → firstBad (closureSetFields s b) = none →
      closureOf s.closures (u8At b 0) = none → s.closures.length < 8 →
      BlockMove s ((s.createClosure (newClosure s b)).afterClosures true)
  | closureEnd (c : Closure) : c ∈ s.closures → c.state = .requested →
      BlockMove s ((s.endRequested c).afterClosures true)
  | closureRelease (c : Closure) : c ∈ s.closures → c.state ≠ .requested → c.state ≠ .releasing →
      BlockMove s ((s.enterReleasing c).afterClosures true)
  | operatorCap (v : Nat) : BlockMove s (State.afterSources { s with operatorCap := v } true)
  | operatorLegend (legends : List Nat) : BlockMove s (State.afterSources { s with legends := legends } false)
  | freeze (source : FreezeSource) : BlockMove s (s.freeze source)
  | historyResume : BlockMove s { s with history := History.empty }
  | lineQuiesce (l : LineId) : BlockMove s (s.setLine l (quiesceLine (s.lines.get l)))
  | lineResume (l : LineId) : BlockMove s (s.setLine l (resumeLine (s.lines.get l)))
  | clockAdvance : s.operating = .running → BlockMove s { s with clock := s.clock + 1, planTimer := s.planTimer + 1 }
  | planPeriod : s.operating = .running →
      BlockMove s (State.endReleased (State.resolve (State.runPlan { s with
        planTimer := s.planTimer - s.params.planPeriod
        traffic := s.traffic.map (ageRec s.params.staleLimit) } true none)))
  | dwellExpiry : s.operating = .running → BlockMove s (s.closeDue.afterClosures false)
  | establishLimit : s.operating = .running → BlockMove s s.markSlow
  | refresh (l : LineId) (test : PanelRec → Bool) : s.operating = .running → BlockMove s (s.refresh l test)
  | transactionStart (l : LineId) : BlockMove s (s.startTransaction l)
  | phase (l : LineId) (before after : Phase) : BlockMove s (s.advancePhase l before after)
  | endUnheld (l : LineId) (t : InFlight) : (s.lines.get l).inFlight = some t →
      panelOn s.panels l t.address = none →
      BlockMove s (s.setLine l { s.lines.get l with mode := .gap, inFlight := none })
  | outcome (l : LineId) (t : InFlight) (r : PanelRec) (j : Judged) : (s.lines.get l).inFlight = some t →
      panelOn s.panels l t.address = some r →
      BlockMove s ((s.setLine l { s.lines.get l with mode := .gap, inFlight := none }).applyOutcome l t j r)
  | endGap (l : LineId) : BlockMove s (s.endGap l)
  | sense (levels : PerLine Nat) : BlockMove s { s with sense := levels }
  | supply (l : LineId) (levels : PerLine Nat) (v : Supply) : BlockMove s (State.crossSupply { s with sense := levels } l v)
  | supplyBack (l : LineId) (levels : PerLine Nat) (v : Supply) : s.operating = .running →
      BlockMove s ((State.crossSupply { s with sense := levels } l v).refresh l (fun _ => true))
  | hold : BlockMove s { s.clearRuntime with nrstLow := true }
  | begin (cause : ResetCause) (low : Bool) :
      BlockMove s (State.senseLines { s.clearRuntime with nrstLow := low, resetCause := cause })
  | beginClear (cause : ResetCause) : BlockMove s (State.senseLines { s.clearAll with resetCause := cause })

/-- A move of the blocks between two moves of the link port. -/
def Moves (s t : State) : Prop := ∃ l u l', BlockMove { s with link := l } u ∧ t = { u with link := l' }

theorem BlockMove.moves {s t : State} (h : BlockMove s t) : Moves s t := ⟨s.link, t, t.link, h, rfl⟩

theorem Moves.link (s : State) (l : Link) : Moves s { s with link := l } := ⟨s.link, s, l, .stays, rfl⟩

theorem Moves.refl (s : State) : Moves s s := Moves.link s s.link

theorem Moves.toLink {s t : State} (h : Moves s t) (l : Link) : Moves s { t with link := l } := by
  obtain ⟨k, u, l', hu, rfl⟩ := h
  exact ⟨k, u, l, hu, rfl⟩

theorem Moves.transmit {s t : State} (h : Moves s t) : Moves s t.transmit := by
  obtain ⟨l, hl⟩ := t.transmit_eq
  rw [hl]
  exact h.toLink l

/-! ## What an effect moves -/

theorem OpState.eq_stopped {o : OpState} (h : ¬ o = .running) : o = .stopped := by cases o <;> simp_all

theorem OpState.eq_running {o : OpState} (h : ¬ o = .stopped) : o = .running := by cases o <;> simp_all

theorem mapParamsEffect_moves (b : Bytes) (s : State) : BlockMove s (mapParamsEffect b s).1 := by
  unfold mapParamsEffect
  split
  · exact .stays
  · rename_i h
    split
    · exact .stays
    · rename_i hf
      exact .mapParams _ (OpState.eq_stopped h) hf

theorem mapGantryEffect_moves (b : Bytes) (s : State) : BlockMove s (mapGantryEffect b s).1 := by
  unfold mapGantryEffect
  split
  · exact .stays
  · rename_i h
    split
    · exact .stays
    · exact .mapGantry _ _ (OpState.eq_stopped h)

theorem mapSpeedsEffect_moves (b : Bytes) (s : State) : BlockMove s (mapSpeedsEffect b s).1 := by
  unfold mapSpeedsEffect
  split
  · exact .stays
  · rename_i h
    split
    · exact .stays
    · rename_i hf
      exact .mapSpeeds b (OpState.eq_stopped h) hf

theorem mapBandsEffect_moves (b : Bytes) (s : State) : BlockMove s (mapBandsEffect b s).1 := by
  unfold mapBandsEffect
  split
  · exact .stays
  · rename_i h
    split
    · exact .stays
    · exact .mapBands _ (OpState.eq_stopped h)

theorem startEffect_moves (b : Bytes) (s : State) : BlockMove s (startEffect b s).1 := by
  unfold startEffect
  split
  · exact .stays
  · rename_i h
    split
    · exact .stays
    · rename_i hf
      exact .start _ (OpState.eq_stopped h) hf

theorem stopEffect_moves (b : Bytes) (s : State) : BlockMove s (stopEffect b s).1 := by
  unfold stopEffect
  split
  · exact .stays
  · rename_i h
    split
    · exact .stays
    · rename_i hc
      exact .stop (OpState.eq_running h) (by simpa using hc)

theorem detectorEffect_moves (b : Bytes) (s : State) : BlockMove s (detectorEffect b s).1 := by
  unfold detectorEffect
  split
  · exact .stays
  · rename_i h
    split
    · exact .stays
    · rename_i hf
      split
      · exact .stays
      · exact .detector b (by simpa using h) hf

theorem triggerSetEffect_moves (b : Bytes) (s : State) : BlockMove s (triggerSetEffect b s).1 := by
  unfold triggerSetEffect
  split
  · exact .stays
  · split
    · exact .stays
    · rename_i he
      split
      · exact .stays
      · exact .triggerSet _ _ (by simpa using he)

theorem triggerEnableEffect_moves (b : Bytes) (s : State) : BlockMove s (triggerEnableEffect b s).1 := by
  unfold triggerEnableEffect
  split
  · exact .stays
  · rename_i hp
    split
    · exact .stays
    · rename_i prog hprog
      split
      · exact .stays
      · rename_i he
        dsimp only
        split
        · rename_i hr
          exact .enableRunning _ prog hr (by omega) hprog (by simpa using he)
        · rename_i hr
          exact .enableStopped _ prog (OpState.eq_stopped hr) hprog (by simpa using he)

theorem triggerDisableEffect_moves (b : Bytes) (s : State) : BlockMove s (triggerDisableEffect b s).1 := by
  unfold triggerDisableEffect
  split
  · exact .stays
  · split
    · exact .stays
    · dsimp only [accept]
      split
      · rename_i h
        exact .disableQuiet _ h
      · exact .disable _

theorem triggerRearmEffect_moves (b : Bytes) (s : State) : BlockMove s (triggerRearmEffect b s).1 := by
  unfold triggerRearmEffect
  split
  · exact .stays
  · exact .rearm _

theorem warningClearEffect_moves (b : Bytes) (s : State) : BlockMove s (warningClearEffect b s).1 := by
  unfold warningClearEffect
  split
  · exact .stays
  · split
    · exact .stays
    · exact .warningClear _

theorem closureSetEffect_moves (b : Bytes) (s : State) : BlockMove s (closureSetEffect b s).1 := by
  unfold closureSetEffect
  split
  · exact .stays
  · rename_i h
    split
    · exact .stays
    · rename_i hf
      split
      · exact .stays
      · rename_i hid
        split
        · exact .stays
        · rename_i hroom
          exact .closureSet b (by simpa using h) hf (by simpa using hid) (by simpa [Config.closureCapacity] using hroom)

theorem closureReleaseEffect_moves (b : Bytes) (s : State) : BlockMove s (closureReleaseEffect b s).1 := by
  unfold closureReleaseEffect
  split
  · exact .stays
  · split
    · exact .stays
    · rename_i c hc
      have hmem : c ∈ s.closures := List.mem_of_find?_eq_some hc
      cases hs : c.state with
      | requested => exact .closureEnd c hmem hs
      | releasing => exact .stays
      | arrows | dwell | closed => exact .closureRelease c hmem (by simp [hs]) (by simp [hs])

theorem operatorCapEffect_moves (b : Bytes) (s : State) : BlockMove s (operatorCapEffect b s).1 := by
  unfold operatorCapEffect
  split
  · exact .stays
  · exact .operatorCap _

theorem operatorLegendEffect_moves (b : Bytes) (s : State) : BlockMove s (operatorLegendEffect b s).1 := by
  unfold operatorLegendEffect
  split
  · exact .stays
  · split
    · exact .stays
    · exact .operatorLegend _

theorem changeLine_moves (b : Bytes) (s : State) (f : Line → Line)
    (h : ∀ l, BlockMove s (s.setLine l (f (s.lines.get l)))) : BlockMove s (s.changeLine b f).1 := by
  unfold State.changeLine
  split
  · exact .stays
  · exact h _

theorem closureQueryEffect_state (b : Bytes) (s : State) : (closureQueryEffect b s).1 = s := by
  unfold closureQueryEffect
  (repeat' split) <;> rfl

theorem gantryQueryEffect_state (b : Bytes) (s : State) : (gantryQueryEffect b s).1 = s := by
  unfold gantryQueryEffect
  (repeat' split) <;> rfl

theorem panelQueryEffect_state (b : Bytes) (s : State) : (panelQueryEffect b s).1 = s := by
  unfold panelQueryEffect
  (repeat' split) <;> rfl

theorem historyReadEffect_state (b : Bytes) (s : State) : (historyReadEffect b s).1 = s := by
  unfold historyReadEffect
  (repeat' split) <;> rfl

/-- Every request's effect is one move of the blocks. -/
theorem requestEffect_moves (k : RequestKind) (b : Bytes) (s : State) : Moves s (requestEffect k b s).1 := by
  cases k with
  | identify | status => exact .refl s
  | reset => exact .link s _
  | mapParams => exact (mapParamsEffect_moves b s).moves
  | mapGantry => exact (mapGantryEffect_moves b s).moves
  | mapSpeeds => exact (mapSpeedsEffect_moves b s).moves
  | mapBands => exact (mapBandsEffect_moves b s).moves
  | start => exact (startEffect_moves b s).moves
  | stop => exact (stopEffect_moves b s).moves
  | detector => exact (detectorEffect_moves b s).moves
  | triggerSet => exact (triggerSetEffect_moves b s).moves
  | triggerEnable => exact (triggerEnableEffect_moves b s).moves
  | triggerDisable => exact (triggerDisableEffect_moves b s).moves
  | triggerRearm => exact (triggerRearmEffect_moves b s).moves
  | warningClear => exact (warningClearEffect_moves b s).moves
  | closureSet => exact (closureSetEffect_moves b s).moves
  | closureRelease => exact (closureReleaseEffect_moves b s).moves
  | operatorCap => exact (operatorCapEffect_moves b s).moves
  | operatorLegend => exact (operatorLegendEffect_moves b s).moves
  | closureQuery => exact (closureQueryEffect_state b s).symm ▸ .refl s
  | gantryQuery => exact (gantryQueryEffect_state b s).symm ▸ .refl s
  | panelQuery => exact (panelQueryEffect_state b s).symm ▸ .refl s
  | historyRead => exact (historyReadEffect_state b s).symm ▸ .refl s
  | historyFreeze => exact (BlockMove.freeze .request).moves
  | historyResume => exact BlockMove.historyResume.moves
  | lineQuiesce => exact (changeLine_moves b s quiesceLine .lineQuiesce).moves
  | lineResume => exact (changeLine_moves b s resumeLine .lineResume).moves

/-! ## What an arrival moves -/

/-- A good frame moves the link port, or makes its act's move. -/
theorem State.arrive_moves (s : State) (body : Bytes) (act : State → State × Frame) (h : ∀ r, Moves r (act r).1) :
    Moves s (s.arrive body act) := by
  unfold State.arrive
  split
  · exact .refl s
  · split
    · exact .link s _
    · dsimp only
      split
      · exact .link s _
      · split
        · exact .link s _
        · obtain ⟨l, u, l', hu, hact⟩ := h { s with link := { s.link with rx := .hunt } }
          have hs : Moves s (act { s with link := { s.link with rx := .hunt } }).1 := ⟨l, u, l', hu, hact⟩
          exact (hs.toLink _).transmit

theorem State.take_moves (s : State) (k : RequestKind) (tag : Byte) (body : Bytes) :
    Moves s (s.take k tag body (requestEffect k)) := by
  refine s.arrive_moves body _ (fun r => ?_)
  dsimp only
  split
  · exact requestEffect_moves k body r
  · exact .refl r

theorem State.arriveFrame_moves (s : State) (kind tag : Byte) (body : Bytes) : Moves s (s.arriveFrame kind tag body) := by
  unfold State.arriveFrame
  split
  · exact s.take_moves _ tag body
  · exact s.arrive_moves body _ (fun r => .refl r)

theorem State.receive_moves (s : State) (c : Byte) : Moves s (s.receive c) := by
  unfold State.receive
  split
  · exact .refl s
  · cases hrx : s.link.rx with
    | hunt =>
      dsimp only
      split
      · exact .link s _
      · exact .refl s
    | header kept =>
      dsimp only
      unfold State.headerChar
      (repeat' split) <;> exact .link s _
    | body h kept =>
      dsimp only
      unfold State.bodyChar
      split <;> exact .link s _
    | check h body first =>
      dsimp only
      unfold State.checkChar
      split
      · exact .link s _
      · split
        · exact s.arriveFrame_moves _ _ _
        · exact .link s _

/-! ## What an event moves -/

theorem State.dropFrame_moves (s : State) : Moves s s.dropFrame := by
  unfold State.dropFrame
  (repeat' split)
  · exact .refl s
  · exact .link s _
  · exact .refl s

theorem State.discardRequest_moves (s : State) : Moves s s.discardRequest := by
  unfold State.discardRequest
  split
  · exact .refl s
  · exact .link s _

/-- Beginning again takes the supply states, and then moves the link port alone. -/
theorem State.restart_moves {s r : State} {cause : ResetCause}
    (h : BlockMove s (State.senseLines { r with resetCause := cause })) : Moves s (r.restart cause) :=
  (h.moves.toLink _).transmit

theorem State.endFrame_moves (s : State) : Moves s s.endFrame := by
  unfold State.endFrame
  split
  · exact .refl s
  · split
    · exact State.restart_moves (.begin .hostRequest s.nrstLow)
    · exact (Moves.link s _).transmit

theorem State.expireDwell_moves (s : State) (id : Nat) : Moves s (s.expireDwell id) := by
  unfold State.expireDwell
  split
  · rename_i h
    exact (BlockMove.dwellExpiry h.1).moves.transmit
  · exact .refl s

theorem State.expireEstablish_moves (s : State) (id : Nat) : Moves s (s.expireEstablish id) := by
  unfold State.expireEstablish
  split
  · rename_i h
    exact (BlockMove.establishLimit h.1).moves.transmit
  · exact .refl s

theorem State.endIn_moves (s : State) (l : LineId) (phase : Phase) (judgeBy : InFlight → Nat → Judged) :
    Moves s (s.endIn l phase judgeBy) := by
  unfold State.endIn
  split
  · exact .refl s
  · rename_i t ht
    split
    · unfold State.endTransaction
      dsimp only
      split
      · rename_i hp
        exact (BlockMove.endUnheld l t ht hp).moves
      · rename_i r hr
        exact (BlockMove.outcome l t r (judgeBy t r.panel.panel) ht hr).moves.transmit
    · exact .refl s

theorem State.followSense_moves (s : State) (l : LineId) (level : Nat) : Moves s (s.followSense l level) := by
  have still : Moves s { s with sense := s.sense.set l level } := (BlockMove.sense _).moves
  unfold State.followSense
  dsimp only
  split
  · exact still
  · split
    · split
      · exact (BlockMove.supply l _ .low).moves.transmit
      · exact still
    · split
      · split
        · rename_i hr
          exact (BlockMove.supplyBack l _ .normal hr).moves.transmit
        · exact (BlockMove.supply l _ .normal).moves.transmit
      · exact still

/-! ## What a step moves -/

theorem Moves.ite {s t : State} {p : Prop} [Decidable p] (h : p → Moves s t) : Moves s (if p then t else s) := by
  split
  · exact h ‹_›
  · exact .refl s

/-- Every command makes one move of the blocks. -/
theorem exec_moves (i : Instr) (s : State) : ∃ t, exec i s = .next t ∧ Moves s t := by
  cases i with
  | identify tag b => exact ⟨_, rfl, s.take_moves .identify tag b⟩
  | status tag b => exact ⟨_, rfl, s.take_moves .status tag b⟩
  | reset tag b => exact ⟨_, rfl, s.take_moves .reset tag b⟩
  | mapParams tag b => exact ⟨_, rfl, s.take_moves .mapParams tag b⟩
  | mapGantry tag b => exact ⟨_, rfl, s.take_moves .mapGantry tag b⟩
  | mapSpeeds tag b => exact ⟨_, rfl, s.take_moves .mapSpeeds tag b⟩
  | mapBands tag b => exact ⟨_, rfl, s.take_moves .mapBands tag b⟩
  | start tag b => exact ⟨_, rfl, s.take_moves .start tag b⟩
  | stop tag b => exact ⟨_, rfl, s.take_moves .stop tag b⟩
  | detector tag b => exact ⟨_, rfl, s.take_moves .detector tag b⟩
  | triggerSet tag b => exact ⟨_, rfl, s.take_moves .triggerSet tag b⟩
  | triggerEnable tag b => exact ⟨_, rfl, s.take_moves .triggerEnable tag b⟩
  | triggerDisable tag b => exact ⟨_, rfl, s.take_moves .triggerDisable tag b⟩
  | triggerRearm tag b => exact ⟨_, rfl, s.take_moves .triggerRearm tag b⟩
  | warningClear tag b => exact ⟨_, rfl, s.take_moves .warningClear tag b⟩
  | closureSet tag b => exact ⟨_, rfl, s.take_moves .closureSet tag b⟩
  | closureRelease tag b => exact ⟨_, rfl, s.take_moves .closureRelease tag b⟩
  | closureQuery tag b => exact ⟨_, rfl, s.take_moves .closureQuery tag b⟩
  | operatorCap tag b => exact ⟨_, rfl, s.take_moves .operatorCap tag b⟩
  | operatorLegend tag b => exact ⟨_, rfl, s.take_moves .operatorLegend tag b⟩
  | gantryQuery tag b => exact ⟨_, rfl, s.take_moves .gantryQuery tag b⟩
  | panelQuery tag b => exact ⟨_, rfl, s.take_moves .panelQuery tag b⟩
  | historyFreeze tag b => exact ⟨_, rfl, s.take_moves .historyFreeze tag b⟩
  | historyRead tag b => exact ⟨_, rfl, s.take_moves .historyRead tag b⟩
  | historyResume tag b => exact ⟨_, rfl, s.take_moves .historyResume tag b⟩
  | lineQuiesce tag b => exact ⟨_, rfl, s.take_moves .lineQuiesce tag b⟩
  | lineResume tag b => exact ⟨_, rfl, s.take_moves .lineResume tag b⟩
  | unknownKind kind tag b => exact ⟨_, rfl, s.arriveFrame_moves kind tag b⟩
  | requestDiscard => exact ⟨_, rfl, s.discardRequest_moves⟩
  | frameDiscard =>
    refine ⟨_, rfl, ?_⟩
    split
    · exact .refl s
    · exact .link s _
  | framingError | interByteGapExpiry => exact ⟨_, rfl, s.dropFrame_moves⟩
  | frameSent => exact ⟨_, rfl, s.endFrame_moves⟩
  | powerOn => exact ⟨_, rfl, State.restart_moves (.beginClear .powerOn)⟩
  | supplyDip => exact ⟨_, rfl, State.restart_moves (.beginClear .supplyDip)⟩
  | nrstAssert => exact ⟨_, rfl, BlockMove.hold.moves⟩
  | nrstRelease => exact ⟨_, rfl, .ite fun _ => State.restart_moves (.begin .resetPin false)⟩
  | corridorClockAdvance => exact ⟨_, rfl, .ite fun h => (BlockMove.clockAdvance h).moves⟩
  | planPeriodExpiry => exact ⟨_, rfl, .ite fun h => (BlockMove.planPeriod h.1).moves.transmit⟩
  | dwellExpiry id => exact ⟨_, rfl, s.expireDwell_moves id⟩
  | establishLimitExpiry id => exact ⟨_, rfl, s.expireEstablish_moves id⟩
  | refreshDue l => exact ⟨_, rfl, .ite fun h => (BlockMove.refresh l _ h).moves⟩
  | transactionStart l => exact ⟨_, rfl, (BlockMove.transactionStart l).moves⟩
  | requestSent l => exact ⟨_, rfl, (BlockMove.phase l .send .wait).moves⟩
  | replyBegun l => exact ⟨_, rfl, (BlockMove.phase l .wait .receive).moves⟩
  | replyComplete l chars => exact ⟨_, rfl, s.endIn_moves l .receive _⟩
  | replyCharacterTimeout l => exact ⟨_, rfl, s.endIn_moves l .receive _⟩
  | replyWindowEnd l => exact ⟨_, rfl, s.endIn_moves l .wait _⟩
  | gapEnd l => exact ⟨_, rfl, (BlockMove.endGap l).moves⟩
  | supplyFallLow l level => exact ⟨_, rfl, s.followSense_moves l level⟩
  | supplyRiseNormal l level => exact ⟨_, rfl, s.followSense_moves l level⟩
  | hostCharacterReceived c => exact ⟨_, rfl, s.receive_moves c⟩

/-- An invariant that reads neither the link port nor the waiting commands is kept by every step where every move of the
blocks keeps it. -/
theorem keptByEveryStep_of_moves {P : State → Prop} (hlink : ∀ s l, P s → P { s with link := l })
    (hpending : ∀ s q, P s → P { s with pending := q }) (hmove : ∀ s t, BlockMove s t → P s → P t) :
    KeptByEveryStep P := by
  intro s t hs hstep
  unfold step at hstep
  split at hstep
  · cases hstep
    exact hs
  · rename_i i rest _
    obtain ⟨t', ht', l, u, l', hu, rfl⟩ := exec_moves i { s with pending := rest }
    rw [ht'] at hstep
    cases hstep
    exact hlink _ _ (hmove _ _ hu (hlink _ _ (hpending _ _ hs)))

end Sys2Proof.Machine
end

section
/-! The trigger unit's tables: the warning table and the working records under every move of the blocks (R7, R13, R44, R51,
R56). -/

namespace Sys2Proof.Machine

open Sys2Proof

/-! ## Rising lists of numbers, and the warning table as a list -/

theorem mem_insertNumber {n m : Nat} {l : List Nat} : m ∈ insertNumber n l ↔ m = n ∨ m ∈ l := by
  induction l with
  | nil => simp [insertNumber]
  | cons a l ih =>
    unfold insertNumber
    split
    · simp
    · split
      · rename_i h
        simp [h]
      · simp only [List.mem_cons, ih]
        exact or_left_comm

theorem insertNumber_ne_nil (n : Nat) (l : List Nat) : insertNumber n l ≠ [] :=
  List.ne_nil_of_mem (mem_insertNumber.2 (.inl rfl))

theorem pairwise_insertNumber {n : Nat} {l : List Nat} (h : l.Pairwise (· < ·)) : (insertNumber n l).Pairwise (· < ·) := by
  induction l with
  | nil => simp [insertNumber]
  | cons a l ih =>
    obtain ⟨ha, hl⟩ := List.pairwise_cons.1 h
    unfold insertNumber
    split
    · rename_i hn
      exact List.pairwise_cons.2 ⟨fun x hx => by
        rcases List.mem_cons.1 hx with rfl | hx
        · exact hn
        · exact Nat.lt_trans hn (ha x hx), h⟩
    · split
      · exact h
      · refine List.pairwise_cons.2 ⟨fun x hx => ?_, ih hl⟩
        rcases mem_insertNumber.1 hx with rfl | hx
        · omega
        · exact ha x hx

theorem insertWarning_perm (w : Warning) (ws : List Warning) : (insertWarning w ws).Perm (w :: ws) := by
  induction ws with
  | nil => exact .refl _
  | cons v ws ih =>
    unfold insertWarning
    split
    · exact .refl _
    · exact (ih.cons v).trans (.swap w v ws)

theorem pairwise_insertWarning {w : Warning} {ws : List Warning} (h : (ws.map (·.gantry)).Pairwise (· < ·))
    (hw : ∀ v ∈ ws, v.gantry ≠ w.gantry) : ((insertWarning w ws).map (·.gantry)).Pairwise (· < ·) := by
  induction ws with
  | nil => simp [insertWarning]
  | cons v ws ih =>
    have hv := hw v (by simp)
    rw [List.map_cons, List.pairwise_cons] at h
    obtain ⟨hlow, hrest⟩ := h
    unfold insertWarning
    split
    · rename_i hlt
      rw [List.map_cons, List.pairwise_cons]
      refine ⟨fun x hx => ?_, by rw [List.map_cons, List.pairwise_cons]; exact ⟨hlow, hrest⟩⟩
      rcases List.mem_cons.1 hx with rfl | hx
      · exact hlt
      · exact Nat.lt_trans hlt (hlow x hx)
    · rw [List.map_cons, List.pairwise_cons]
      refine ⟨fun x hx => ?_, ih hrest fun u hu => hw u (by simp [hu])⟩
      obtain ⟨u, hu, rfl⟩ := List.mem_map.1 hx
      rcases List.mem_cons.1 ((insertWarning_perm w ws).mem_iff.1 hu) with rfl | hu
      · omega
      · exact hlow _ (List.mem_map_of_mem hu)

theorem putWarning_gantries (ws : List Warning) (w : Warning) :
    (putWarning ws w).map (·.gantry) = ws.map (·.gantry) := by
  rw [putWarning, List.map_map]
  refine List.map_congr_left fun v _ => ?_
  rw [Function.comp_apply]
  split
  · rename_i h
    exact h.symm
  · rfl

theorem mem_putWarning {ws : List Warning} {v w : Warning} (h : v ∈ putWarning ws w) : v = w ∨ v ∈ ws := by
  obtain ⟨u, hu, rfl⟩ := List.mem_map.1 h
  split
  · exact .inl rfl
  · exact .inr hu

theorem warningAt_some {ws : List Warning} {g : Nat} {w : Warning} (h : warningAt ws g = some w) :
    w ∈ ws ∧ w.gantry = g :=
  ⟨List.mem_of_find?_eq_some h, by simpa using List.find?_some h⟩

theorem warningAt_none {ws : List Warning} {g : Nat} (h : warningAt ws g = none) : ∀ w ∈ ws, w.gantry ≠ g := by
  simpa [warningAt, List.find?_eq_none] using h

/-! ## Enabled programs -/

/-- Every program enabled in `s` is enabled in `t`, with the fields it had. -/
def KeepsEnabled (s t : State) : Prop := ∀ p prog, s.enabledProgram p = some prog → t.enabledProgram p = some prog

theorem State.slot_setSlot (s : State) (p q : Nat) (v : ProgramSlot) :
    (s.setSlot p v).slot q = if q = p ∧ p < s.programs.length then v else s.slot q := by
  simp only [State.slot, State.setSlot, List.getD_eq_getElem?_getD, List.getElem?_set]
  by_cases hq : q = p
  · subst hq
    by_cases hlt : q < s.programs.length
    · simp [hlt]
    · simp [hlt]
  · simp [hq, Ne.symm hq]

theorem State.enabledProgram_some {s : State} {p : Nat} {prog : Program} :
    s.enabledProgram p = some prog ↔ (s.slot p).enabled = true ∧ (s.slot p).fields = some prog := by
  unfold State.enabledProgram
  cases (s.slot p).enabled <;> simp

theorem KeepsEnabled.of_programs {s t : State} (h : t.programs = s.programs) : KeepsEnabled s t := by
  intro p prog hp
  have hslot : t.slot p = s.slot p := by simp only [State.slot, h]
  rwa [State.enabledProgram_some, hslot, ← State.enabledProgram_some]

/-- A slot that is not enabled is written: no enabled program changes. -/
theorem KeepsEnabled.setSlot {s : State} {p : Nat} (h : (s.slot p).enabled = false) (v : ProgramSlot) :
    KeepsEnabled s (s.setSlot p v) := by
  intro q prog hq
  rw [State.enabledProgram_some] at hq ⊢
  rw [State.slot_setSlot, if_neg]
  · exact hq
  · rintro ⟨rfl, -⟩
    rw [h] at hq
    cases hq.1

/-- The slot of a set program is one of the table. -/
theorem State.slot_lt {s : State} {p : Nat} {prog : Program} (h : (s.slot p).fields = some prog) :
    p < s.programs.length := by
  refine Nat.lt_of_not_le fun hp => ?_
  simp [State.slot, List.getD_eq_getElem?_getD, List.getElem?_eq_none hp] at h

/-- A set program that is enabled reads as enabled. -/
theorem State.enabledProgram_enabled {s : State} {p : Nat} {prog : Program} (h : (s.slot p).fields = some prog) :
    (s.setSlot p ⟨some prog, true⟩).enabledProgram p = some prog := by
  rw [State.enabledProgram_some, State.slot_setSlot, if_pos ⟨rfl, State.slot_lt h⟩]
  exact ⟨rfl, rfl⟩

/-- The enabled programs but the one that is disabled stand (R43). -/
theorem State.enabledProgram_disableProgram {s : State} {p q : Nat} (h : q ≠ p) :
    (s.disableProgram p).enabledProgram q = s.enabledProgram q := by
  have : (s.disableProgram p).slot q = s.slot q := by
    change (s.setSlot p _).slot q = s.slot q
    rw [State.slot_setSlot, if_neg fun hq => h hq.1]
  simp only [State.enabledProgram, this]

/-! ## The three invariants carried from one state to another -/

/-- R56: a warning as the table may hold it. -/
def WarningFits (s : State) (w : Warning) : Prop :=
  w.owners ≠ [] ∧ w.owners.Pairwise (· < ·) ∧ ∀ p ∈ w.owners, p < 8 ∧ (s.enabledProgram p).isSome = true

/-- R44, R51: a working record as the table may hold it. -/
def InstFits (s : State) (i : TrigInst) : Prop :=
  i.program < 8 ∧ ∃ p, s.enabledProgram i.program = some p ∧ i.gantry < s.params.gantryCount
    ∧ p.first ≤ i.gantry ∧ i.gantry ≤ p.last ∧ i.counter ≤ p.preset ∧ i.window ≤ p.window

theorem WarningFits.mono {s t : State} {w : Warning} (hk : KeepsEnabled s t) (h : WarningFits s w) :
    WarningFits t w := by
  obtain ⟨hne, hsorted, howners⟩ := h
  refine ⟨hne, hsorted, fun p hp => ⟨(howners p hp).1, ?_⟩⟩
  obtain ⟨prog, hprog⟩ := Option.isSome_iff_exists.1 (howners p hp).2
  rw [hk p prog hprog]
  rfl

theorem InstFits.mono {s t : State} {i : TrigInst} (hk : KeepsEnabled s t)
    (hg : t.params.gantryCount = s.params.gantryCount) (h : InstFits s i) : InstFits t i := by
  obtain ⟨hp, prog, hprog, hrest⟩ := h
  exact ⟨hp, prog, hk _ _ hprog, hg ▸ hrest⟩

theorem WarningsLegal.mono {s t : State} (hk : KeepsEnabled s t) (hw : t.warnings = s.warnings)
    (h : WarningsLegal s) : WarningsLegal t := by
  obtain ⟨hlen, hsorted, hfits⟩ := h
  unfold WarningsLegal
  rw [hw]
  exact ⟨hlen, hsorted, fun w hmem => WarningFits.mono hk (hfits w hmem)⟩

theorem InstsLegal.mono {s t : State} (hk : KeepsEnabled s t) (hi : t.insts = s.insts)
    (hg : t.params.gantryCount = s.params.gantryCount) (h : InstsLegal s) : InstsLegal t := by
  obtain ⟨hnodup, hfits⟩ := h
  unfold InstsLegal
  rw [hi]
  exact ⟨hnodup, fun i hmem => InstFits.mono hk hg (hfits i hmem)⟩

theorem WarningsLegal.of_nil {s : State} (h : s.warnings = []) : WarningsLegal s := by
  simp [WarningsLegal, h]

theorem InstsLegal.of_nil {s : State} (h : s.insts = []) : InstsLegal s := by
  simp [InstsLegal, h]

theorem StoppedIsEmpty.of_running {s : State} (h : s.operating = .running) : StoppedIsEmpty s := by
  intro hs
  rw [h] at hs
  cases hs

/-- What every step keeps of the trigger unit. -/
def UnitsLegal (s : State) : Prop := StoppedIsEmpty s ∧ WarningsLegal s ∧ InstsLegal s

/-- The working records and the warnings stand, with the programs and the size they are judged by. -/
theorem UnitsLegal.same {s t : State} (h : UnitsLegal s) (hempty : StoppedIsEmpty s → StoppedIsEmpty t)
    (hw : t.warnings = s.warnings) (hi : t.insts = s.insts) (hp : t.programs = s.programs) (hg : t.params = s.params) :
    UnitsLegal t :=
  ⟨hempty h.1, h.2.1.mono (.of_programs hp) hw, h.2.2.mono (.of_programs hp) hi (by rw [hg])⟩

/-! ## What a change of sources leaves -/

theorem State.afterSources_stopped {s : State} (h : s.operating = .stopped) (demand : Bool) :
    s.afterSources demand = s := by
  simp [State.afterSources, h]

theorem State.afterClosures_stopped {s : State} (h : s.operating = .stopped) (demand : Bool) :
    s.afterClosures demand = s := by
  simp [State.afterClosures, h]

theorem StoppedIsEmpty.afterSources {s : State} (h : StoppedIsEmpty s) (demand : Bool) :
    StoppedIsEmpty (s.afterSources demand) := by
  cases ho : s.operating with
  | stopped => rwa [State.afterSources_stopped ho]
  | running => exact .of_running (by simp [ho])

theorem StoppedIsEmpty.afterClosures {s : State} (h : StoppedIsEmpty s) (demand : Bool) :
    StoppedIsEmpty (s.afterClosures demand) := by
  cases ho : s.operating with
  | stopped => rwa [State.afterClosures_stopped ho]
  | running => exact .of_running (by simp [ho])

theorem UnitsLegal.afterSources {s : State} (h : UnitsLegal s) (demand : Bool) : UnitsLegal (s.afterSources demand) :=
  h.same (·.afterSources demand) (by simp) (by simp) (by simp) (by simp)

theorem UnitsLegal.afterClosures {s : State} (h : UnitsLegal s) (demand : Bool) : UnitsLegal (s.afterClosures demand) :=
  h.same (·.afterClosures demand) (by simp) (by simp) (by simp) (by simp)

/-- Queues, records and tables of STOPPED are empty: a record update that leaves them keeps that. -/
theorem StoppedIsEmpty.same {s t : State} (h : StoppedIsEmpty s) (ho : t.operating = s.operating)
    (htraffic : t.traffic = s.traffic) (hinsts : t.insts = s.insts) (hwarnings : t.warnings = s.warnings)
    (hplan : t.plan = s.plan) (hclosures : s.closures = [] → t.closures = [])
    (hqueues : ∀ l, (t.lines.get l).queue = (s.lines.get l).queue) : StoppedIsEmpty t := by
  intro hs
  obtain ⟨h1, h2, h3, h4, h5, h6⟩ := h (ho ▸ hs)
  exact ⟨htraffic ▸ h1, hinsts ▸ h2, hwarnings ▸ h3, hplan ▸ h4, hclosures h5, fun l => (hqueues l).trans (h6 l)⟩

/-! ## Working records (R44, R45, R51, R53) -/

theorem mem_newInsts {gantryCount p : Nat} {prog : Program} {i : TrigInst} :
    i ∈ newInsts gantryCount p prog ↔ i.program = p ∧ i.gantry < gantryCount ∧ prog.first ≤ i.gantry
      ∧ i.gantry ≤ prog.last ∧ i.counter = prog.preset ∧ i.window = 0 ∧ i.fired = false := by
  simp only [newInsts, List.mem_map, List.mem_filter, List.mem_range, decide_eq_true_eq]
  constructor
  · rintro ⟨g, ⟨hg, hf, hl⟩, rfl⟩
    exact ⟨rfl, hg, hf, hl, rfl, rfl, rfl⟩
  · obtain ⟨p', g, c, w, f⟩ := i
    rintro ⟨rfl, hg, hf, hl, rfl, rfl, rfl⟩
    exact ⟨g, ⟨hg, hf, hl⟩, rfl⟩

theorem newInsts_nodup (gantryCount p : Nat) (prog : Program) :
    ((newInsts gantryCount p prog).map (fun i => (i.program, i.gantry))).Nodup := by
  rw [newInsts, List.map_map]
  exact List.pairwise_map.2 ((List.nodup_range.filter _).imp fun hne h => hne (Prod.mk.inj h).2)

/-- A working record as created fits, once its program is enabled (R44). -/
theorem InstFits.of_newInsts {s : State} {p : Nat} {prog : Program} {i : TrigInst} (hp : p < 8)
    (hprog : s.enabledProgram p = some prog) (h : i ∈ newInsts s.params.gantryCount p prog) : InstFits s i := by
  obtain ⟨rfl, hg, hf, hl, hc, hw, -⟩ := mem_newInsts.1 h
  exact ⟨hp, prog, hprog, hg, hf, hl, Nat.le_of_eq hc, hw ▸ Nat.zero_le _⟩

/-- The working records START makes for one program; none where it is not enabled (R11). -/
def State.instsOf (s : State) (p : Nat) : List TrigInst :=
  (s.enabledProgram p).elim [] (newInsts s.params.gantryCount p)

theorem State.startInsts_eq (s : State) : s.startInsts = programNumbers.flatMap s.instsOf := by
  unfold State.startInsts
  congr 1
  funext p
  unfold State.instsOf
  cases s.enabledProgram p <;> rfl

theorem mem_instsOf {s : State} {p : Nat} {i : TrigInst} :
    i ∈ s.instsOf p ↔ ∃ prog, s.enabledProgram p = some prog ∧ i ∈ newInsts s.params.gantryCount p prog := by
  unfold State.instsOf
  cases s.enabledProgram p <;> simp

theorem instsOf_program {s : State} {p : Nat} {i : TrigInst} (h : i ∈ s.instsOf p) : i.program = p := by
  obtain ⟨prog, -, hi⟩ := mem_instsOf.1 h
  exact (mem_newInsts.1 hi).1

theorem mem_startInsts {s : State} {i : TrigInst} :
    i ∈ s.startInsts ↔ i.program < 8 ∧ ∃ prog, s.enabledProgram i.program = some prog
      ∧ i ∈ newInsts s.params.gantryCount i.program prog := by
  simp only [State.startInsts_eq, programNumbers, List.mem_flatMap, List.mem_range, mem_instsOf]
  constructor
  · rintro ⟨p, hp, prog, hprog, hi⟩
    obtain rfl := (mem_newInsts.1 hi).1
    exact ⟨hp, prog, hprog, hi⟩
  · rintro ⟨hp, prog, hprog, hi⟩
    exact ⟨i.program, hp, prog, hprog, hi⟩

/-- START makes at most one working record per program and gantry (R11, R44). -/
theorem startInsts_nodup (s : State) : (s.startInsts.map (fun i => (i.program, i.gantry))).Nodup := by
  rw [State.startInsts_eq, List.map_flatMap, List.Nodup, List.pairwise_flatMap]
  refine ⟨fun p _ => ?_, (List.nodup_range (n := 8)).imp fun hne x hx y hy hxy => ?_⟩
  · unfold State.instsOf
    cases s.enabledProgram p with
    | none => exact List.nodup_nil
    | some prog => exact newInsts_nodup _ _ _
  · obtain ⟨i, hi, rfl⟩ := List.mem_map.1 hx
    obtain ⟨j, hj, rfl⟩ := List.mem_map.1 hy
    exact hne ((instsOf_program hi).symm.trans ((Prod.mk.inj hxy).1.trans (instsOf_program hj)))

/-- Its evaluation leaves a working record its place, its counter within the preset and its window within w (R51, R52). -/
theorem applyQ_fits (prog : Program) (i : TrigInst) (q : Option Bool) (window : Nat) (f : Firing)
    (hc : i.counter ≤ prog.preset) (hw : window ≤ prog.window) :
    (applyQ prog i q window f).inst.program = i.program ∧ (applyQ prog i q window f).inst.gantry = i.gantry
      ∧ (applyQ prog i q window f).inst.counter ≤ prog.preset ∧ (applyQ prog i q window f).inst.window ≤ prog.window := by
  unfold applyQ
  split
  · exact ⟨rfl, rfl, hc, hw⟩
  · split
    · split
      · refine ⟨rfl, rfl, ?_, Nat.zero_le _⟩
        dsimp only
        split
        · exact Nat.le_refl _
        · exact Nat.zero_le _
      · exact ⟨rfl, rfl, Nat.le_trans (Nat.sub_le _ _) hc, hw⟩
    · exact ⟨rfl, rfl, Nat.le_refl _, hw⟩
    · exact ⟨rfl, rfl, hc, hw⟩

/-- A window is never more than w (R50). -/
theorem qualify_window_le (mode : TrigMode) {w window : Nat} (h : window ≤ w) (a b : Option Bool) :
    (qualify mode w window a b).2 ≤ w := by
  unfold qualify
  split
  · exact Nat.zero_le _
  · exact Nat.zero_le _
  · exact Nat.zero_le _
  · split
    · dsimp only
      split
      · exact Nat.le_refl _
      · exact Nat.zero_le _
    · split
      · exact h
      · exact Nat.le_trans (Nat.sub_le _ _) h

theorem applyQ_firing {prog : Program} {i : TrigInst} {q : Option Bool} {window : Nat} {f f' : Firing}
    (h : (applyQ prog i q window f).firing = some f') : f' = f := by
  unfold applyQ at h
  (repeat' split at h) <;> simp_all

/-- What the evaluation of a gantry forms: each from a working record of an enabled program there (R45 step 1). -/
theorem mem_evaluations {s : State} {g : Nat} {e : Evaluated} :
    e ∈ s.evaluations g ↔ ∃ p prog i, p < 8 ∧ s.enabledProgram p = some prog ∧ i ∈ s.insts ∧ i.program = p
      ∧ i.gantry = g ∧ e = s.evaluate prog i := by
  simp only [State.evaluations, programNumbers, List.mem_flatMap, List.mem_range]
  constructor
  · rintro ⟨p, hp, he⟩
    split at he
    · cases he
    · rename_i prog hprog
      obtain ⟨i, hi, rfl⟩ := List.mem_map.1 he
      obtain ⟨hi, hpg⟩ := List.mem_filter.1 hi
      simp only [Bool.and_eq_true, beq_iff_eq] at hpg
      exact ⟨p, prog, i, hp, hprog, hi, hpg.1, hpg.2, rfl⟩
  · rintro ⟨p, prog, i, hp, hprog, hi, rfl, rfl, rfl⟩
    refine ⟨i.program, hp, ?_⟩
    rw [hprog]
    exact List.mem_map_of_mem (List.mem_filter.2 ⟨hi, by simp⟩)

/-- An evaluated working record of a legal table fits. -/
theorem InstFits.of_evaluations {s : State} (h : InstsLegal s) {g : Nat} {e : Evaluated} (he : e ∈ s.evaluations g) :
    InstFits s e.inst := by
  obtain ⟨p, prog, i, hp, hprog, hi, rfl, rfl, rfl⟩ := mem_evaluations.1 he
  obtain ⟨-, prog', hprog', hg, hf, hl, hc, hw⟩ := h.2 i hi
  obtain rfl : prog' = prog := Option.some.inj (hprog'.symm.trans hprog)
  obtain ⟨h1, h2, h3, h4⟩ := applyQ_fits prog' i _ _ ⟨i.program, _, _⟩ hc (qualify_window_le prog'.mode hw _ _)
  unfold InstFits State.evaluate
  dsimp only
  rw [h1, h2]
  exact ⟨hp, prog', hprog, hg, hf, hl, h3, h4⟩

/-- A firing names a program of 0..7. -/
theorem firing_program_lt {s : State} {g : Nat} {f : Firing}
    (hf : f ∈ (s.evaluations g).filterMap (·.firing)) : f.program < 8 := by
  obtain ⟨e, he, hfire⟩ := List.mem_filterMap.1 hf
  obtain ⟨p, prog, i, hp, -, -, rfl, -, rfl⟩ := mem_evaluations.1 he
  rw [applyQ_firing hfire]
  exact hp

theorem updateInsts_places (insts : List TrigInst) (evs : List Evaluated) :
    (updateInsts insts evs).map (fun i => (i.program, i.gantry)) = insts.map (fun i => (i.program, i.gantry)) := by
  rw [updateInsts, List.map_map]
  refine List.map_congr_left fun i _ => ?_
  rw [Function.comp_apply]
  split
  · rename_i e he
    have := List.find?_some he
    simp only [Bool.and_eq_true, beq_iff_eq] at this
    rw [this.1, this.2]
  · rfl

theorem mem_updateInsts {insts : List TrigInst} {evs : List Evaluated} {i : TrigInst}
    (h : i ∈ updateInsts insts evs) : i ∈ insts ∨ ∃ e ∈ evs, i = e.inst := by
  obtain ⟨j, hj, rfl⟩ := List.mem_map.1 h
  split
  · rename_i e he
    exact .inr ⟨e, List.mem_of_find?_eq_some he, rfl⟩
  · exact .inl hj

theorem InstsLegal.evaluated {s : State} (h : InstsLegal s) (g : Nat) :
    InstsLegal { s with insts := updateInsts s.insts (s.evaluations g) } := by
  refine ⟨by rw [updateInsts_places]; exact h.1, fun i hi => ?_⟩
  rcases mem_updateInsts hi with hi | ⟨e, he, rfl⟩
  · exact h.2 i hi
  · exact InstFits.of_evaluations h he

theorem rearmInst_place (p preset : Nat) (i : TrigInst) :
    (rearmInst p preset i).program = i.program ∧ (rearmInst p preset i).gantry = i.gantry := by
  unfold rearmInst
  split <;> exact ⟨rfl, rfl⟩

theorem State.presetOf_enabled {s : State} {p : Nat} {prog : Program} (h : s.enabledProgram p = some prog) :
    s.presetOf p = prog.preset := by
  rw [State.presetOf, (State.enabledProgram_some.1 h).2]

theorem InstsLegal.rearm {s : State} (h : InstsLegal s) (p : Nat) :
    InstsLegal { s with insts := s.insts.map (rearmInst p (s.presetOf p)) } := by
  refine ⟨?_, fun i hi => ?_⟩
  · rw [List.map_map]
    refine (List.map_congr_left fun i _ => ?_) ▸ h.1
    rw [Function.comp_apply, (rearmInst_place p _ i).1, (rearmInst_place p _ i).2]
  · obtain ⟨j, hj, rfl⟩ := List.mem_map.1 hi
    obtain ⟨hp, prog, hprog, hg, hf, hl, hc, hw⟩ := h.2 j hj
    unfold rearmInst
    split
    · rename_i hij
      exact ⟨hp, prog, hprog, hg, hf, hl, Nat.le_of_eq (hij.1 ▸ State.presetOf_enabled hprog), Nat.zero_le _⟩
    · exact ⟨hp, prog, hprog, hg, hf, hl, hc, hw⟩

/-- The records of a program enabled while RUNNING join the table (R42). -/
theorem InstsLegal.enable {s : State} (h : InstsLegal s) {p : Nat} {prog : Program} (hp : p < 8)
    (hprog : (s.slot p).fields = some prog) (hoff : (s.slot p).enabled = false) :
    InstsLegal { s.setSlot p ⟨some prog, true⟩ with insts := s.insts ++ newInsts s.params.gantryCount p prog } := by
  have others : ∀ i ∈ s.insts, i.program ≠ p := by
    rintro i hi rfl
    obtain ⟨-, prog', hprog', -⟩ := h.2 i hi
    rw [State.enabledProgram_some, hoff] at hprog'
    cases hprog'.1
  refine ⟨?_, fun i hi => ?_⟩
  · rw [List.map_append, List.nodup_append]
    refine ⟨h.1, newInsts_nodup _ _ _, fun x hx y hy hxy => ?_⟩
    obtain ⟨i, hi, rfl⟩ := List.mem_map.1 hx
    obtain ⟨j, hj, rfl⟩ := List.mem_map.1 hy
    exact others i hi ((Prod.mk.inj hxy).1.trans (mem_newInsts.1 hj).1)
  · rcases List.mem_append.1 hi with hi | hi
    · exact InstFits.mono (t := { s.setSlot p ⟨some prog, true⟩ with insts := _ })
        (KeepsEnabled.setSlot hoff _) rfl (h.2 i hi)
    · exact InstFits.of_newInsts (s := { s.setSlot p ⟨some prog, true⟩ with insts := _ }) hp
        (State.enabledProgram_enabled hprog) hi

/-! ## The warning table (R56 to R61) -/

theorem WarningsLegal.drop {s : State} (h : WarningsLegal s) (g : Nat) :
    WarningsLegal { s with warnings := dropWarning s.warnings g } := by
  obtain ⟨hlen, hsorted, hfits⟩ := h
  exact ⟨Nat.le_trans (List.length_filter_le _ _) hlen, hsorted.sublist (List.filter_sublist.map _),
    fun w hw => hfits w (List.mem_filter.1 hw).1⟩

theorem WarningsLegal.put {s : State} (h : WarningsLegal s) {w : Warning} (hw : WarningFits s w) :
    WarningsLegal { s with warnings := putWarning s.warnings w } := by
  obtain ⟨hlen, hsorted, hfits⟩ := h
  refine ⟨Nat.le_trans (Nat.le_of_eq (List.length_map _)) hlen, by rw [putWarning_gantries]; exact hsorted, fun v hv => ?_⟩
  rcases mem_putWarning hv with rfl | hv
  · exact hw
  · exact hfits v hv

theorem WarningsLegal.insert {s : State} (h : WarningsLegal s) {w : Warning} (hw : WarningFits s w)
    (hroom : s.warnings.length < 16) (hnew : ∀ v ∈ s.warnings, v.gantry ≠ w.gantry) :
    WarningsLegal { s with warnings := insertWarning w s.warnings } := by
  obtain ⟨-, hsorted, hfits⟩ := h
  refine ⟨Nat.le_trans (Nat.le_of_eq (insertWarning_perm w s.warnings).length_eq) hroom,
    pairwise_insertWarning hsorted hnew, fun v hv => ?_⟩
  rcases List.mem_cons.1 ((insertWarning_perm w s.warnings).mem_iff.1 hv) with rfl | hv
  · exact hw
  · exact hfits v hv

/-- WARN of an enabled program keeps the table legal (R57). -/
theorem WarningsLegal.placeWarning {s : State} (h : WarningsLegal s) {p : Nat} (hp : p < 8)
    (hen : (s.enabledProgram p).isSome = true) (g : Nat) : WarningsLegal (s.placeWarning p g).1 := by
  unfold State.placeWarning
  split
  · rename_i w hw
    obtain ⟨-, hsorted, howners⟩ := h.2.2 w (warningAt_some hw).1
    refine h.put (w := { s.reown w (insertNumber p w.owners) with hold := _ })
      ⟨insertNumber_ne_nil _ _, pairwise_insertNumber hsorted, fun q hq => ?_⟩
    rcases mem_insertNumber.1 hq with rfl | hq
    · exact ⟨hp, hen⟩
    · exact howners q hq
  · rename_i hw
    split
    · rename_i hroom
      refine h.insert (w := { s.reown ⟨g, [], 0, 0, 0, s.clock⟩ [p] with hold := _ }) ⟨?_, ?_, ?_⟩ hroom
        (warningAt_none hw)
      · exact List.cons_ne_nil _ _
      · exact List.pairwise_singleton _ _
      · intro q hq
        obtain rfl := List.mem_singleton.1 hq
        exact ⟨hp, hen⟩
    · exact h

theorem WarningsLegal.fire {s : State} (h : WarningsLegal s) (g : Nat) {f : Firing} (hf : f.program < 8) :
    WarningsLegal (s.fire g f) := by
  cases hen : s.enabledProgram f.program with
  | none => simpa [State.fire, hen] using h
  | some prog =>
    have placed : WarningsLegal (if prog.actions.warn then s.placeWarning f.program g else (s, .none)).1 := by
      split
      · exact h.placeWarning hf (by rw [hen]; rfl) g
      · exact h
    refine placed.mono (.of_programs ?_) ?_ <;>
    · simp only [State.fire, hen]
      (repeat' split) <;> simp

theorem WarningsLegal.fires (g : Nat) (fs : List Firing) {s : State} (h : WarningsLegal s)
    (hfs : ∀ f ∈ fs, f.program < 8) : WarningsLegal (fs.foldl (fun st f => st.fire g f) s) := by
  induction fs generalizing s with
  | nil => exact h
  | cons f fs ih => exact ih (h.fire g (hfs f (by simp))) fun f' hf' => hfs f' (by simp [hf'])

theorem State.fires_insts (g : Nat) (fs : List Firing) (s : State) :
    (fs.foldl (fun st f => st.fire g f) s).insts = s.insts := by
  induction fs generalizing s with
  | nil => rfl
  | cons f fs ih => rw [List.foldl_cons, ih, State.fire_insts]

theorem WarningsLegal.updateHold {s : State} (h : WarningsLegal s) (evs : List Evaluated) (g : Nat) :
    WarningsLegal (s.updateHold evs g) := by
  unfold State.updateHold
  split
  · exact h
  · rename_i w hw
    split
    · exact (h.drop w.gantry).mono (.of_programs rfl) rfl
    · exact h.put (w := { w with hold := _ }) (h.2.2 w (warningAt_some hw).1)

theorem WarningsLegal.evaluateGantry {s : State} (h : WarningsLegal s) (g : Nat) : WarningsLegal (s.evaluateGantry g) := by
  have fired := WarningsLegal.fires g ((s.evaluations g).filterMap (·.firing))
    (s := { s with insts := updateInsts s.insts (s.evaluations g) }) h (fun f hf => firing_program_lt hf)
  exact (fired.mono (.of_programs (State.announceWarning_programs ..)) (State.announceWarning_warnings ..)).updateHold _ _

theorem InstsLegal.evaluateGantry {s : State} (h : InstsLegal s) (g : Nat) : InstsLegal (s.evaluateGantry g) := by
  refine InstsLegal.mono (s := { s with insts := updateInsts s.insts (s.evaluations g) })
    (.of_programs (State.evaluateGantry_programs s g)) ?_ (by rw [State.evaluateGantry_params]) (h.evaluated g)
  unfold State.evaluateGantry
  dsimp only
  rw [State.updateHold_insts, State.announceWarning_insts, State.fires_insts]

theorem UnitsLegal.applyDetector {s : State} (h : UnitsLegal s) (hr : s.operating = .running) (b : Bytes) :
    UnitsLegal (s.applyDetector b) := by
  have read : UnitsLegal ((s.recordTraffic b).evaluateGantry (u8At b 0)) :=
    ⟨.of_running (by rw [State.evaluateGantry_operating]; exact hr),
      WarningsLegal.evaluateGantry (s := s.recordTraffic b) h.2.1 _,
      InstsLegal.evaluateGantry (s := s.recordTraffic b) h.2.2 _⟩
  unfold State.applyDetector
  dsimp only
  split
  · exact read.afterSources true
  · exact read

/-! ## TRIGGER_DISABLE (R43) -/

theorem State.disown_gantry (s : State) (p : Nat) (w : Warning) : (s.disown p w).gantry = w.gantry := by
  unfold State.disown
  dsimp only
  (repeat' split) <;> rfl

theorem State.disown_owners (s : State) (p : Nat) (w : Warning) :
    (s.disown p w).owners = w.owners.filter (fun q => q != p) := by
  unfold State.disown
  dsimp only
  split
  · split
    · rename_i h
      exact (List.isEmpty_iff.1 h).symm
    · rfl
  · rename_i h
    refine (List.filter_eq_self.2 fun q hq => ?_).symm
    simp only [bne_iff_ne, ne_eq]
    rintro rfl
    exact h (List.contains_iff_mem.2 hq)

theorem WarningsLegal.disableProgram {s : State} (h : WarningsLegal s) (p : Nat) : WarningsLegal (s.disableProgram p) := by
  obtain ⟨hlen, hsorted, hfits⟩ := h
  obtain ⟨s1, hs1⟩ : ∃ s1 : State, (s.disableProgram p).warnings
      = (s.warnings.map (s1.disown p)).filter (fun w => !w.owners.isEmpty) := ⟨_, rfl⟩
  unfold WarningsLegal
  rw [hs1]
  have gantries : (s.warnings.map (s1.disown p)).map (·.gantry) = s.warnings.map (·.gantry) := by
    rw [List.map_map]
    exact List.map_congr_left fun w _ => State.disown_gantry _ _ _
  refine ⟨Nat.le_trans (List.length_filter_le _ _) (by simpa using hlen), ?_, fun v hv => ?_⟩
  · exact (gantries ▸ hsorted).sublist (List.filter_sublist.map _)
  · obtain ⟨hv, hne⟩ := List.mem_filter.1 hv
    obtain ⟨w, hw, rfl⟩ := List.mem_map.1 hv
    obtain ⟨-, hown, howners⟩ := hfits w hw
    refine ⟨by simpa using hne, ?_, fun q hq => ?_⟩
    · rw [State.disown_owners]
      exact hown.filter _
    · rw [State.disown_owners, List.mem_filter] at hq
      rw [State.enabledProgram_disableProgram (by simpa using hq.2)]
      exact howners q hq.1

theorem InstsLegal.disableProgram {s : State} (h : InstsLegal s) (p : Nat) : InstsLegal (s.disableProgram p) := by
  have hi : (s.disableProgram p).insts = s.insts.filter (fun i => i.program != p) := rfl
  unfold InstsLegal
  rw [hi]
  refine ⟨h.1.sublist (List.filter_sublist.map _), fun i hi => ?_⟩
  obtain ⟨hi, hne⟩ := List.mem_filter.1 hi
  obtain ⟨hp, prog, hprog, hrest⟩ := h.2 i hi
  refine ⟨hp, prog, ?_, hrest⟩
  rw [State.enabledProgram_disableProgram (by simpa using hne)]
  exact hprog

theorem StoppedIsEmpty.disableProgram {s : State} (h : StoppedIsEmpty s) (p : Nat) :
    StoppedIsEmpty (s.disableProgram p) := by
  intro hs
  obtain ⟨h1, h2, h3, h4, h5, h6⟩ := h hs
  have hi : (s.disableProgram p).insts = s.insts.filter (fun i => i.program != p) := rfl
  obtain ⟨s1, hw⟩ : ∃ s1 : State, (s.disableProgram p).warnings
      = (s.warnings.map (s1.disown p)).filter (fun w => !w.owners.isEmpty) := ⟨_, rfl⟩
  exact ⟨h1, by simp [hi, h2], by simp [hw, h3], h4, h5, h6⟩

theorem UnitsLegal.disableProgram {s : State} (h : UnitsLegal s) (p : Nat) : UnitsLegal (s.disableProgram p) :=
  ⟨h.1.disableProgram p, h.2.1.disableProgram p, h.2.2.disableProgram p⟩

/-! ## Every move -/

/-- A change of one line's state that leaves its queue. -/
theorem StoppedIsEmpty.setLine {s : State} (h : StoppedIsEmpty s) (l : LineId) {v : Line}
    (hq : v.queue = (s.lines.get l).queue) : StoppedIsEmpty (s.setLine l v) := by
  refine h.same rfl rfl rfl rfl rfl id fun m => ?_
  rw [State.setLine, PerLine.get_set]
  split
  · rename_i hm
    rw [hm, hq]
  · rfl

theorem UnitsLegal.setLine {s : State} (h : UnitsLegal s) (l : LineId) {v : Line}
    (hq : v.queue = (s.lines.get l).queue) : UnitsLegal (s.setLine l v) :=
  h.same (·.setLine l hq) rfl rfl rfl rfl

/-- Every reset leaves the units empty (R17). -/
theorem UnitsLegal.of_cleared {t : State} (htraffic : t.traffic = []) (hi : t.insts = []) (hw : t.warnings = [])
    (hplan : t.plan = []) (hc : t.closures = []) (hq : ∀ l, (t.lines.get l).queue = []) : UnitsLegal t :=
  ⟨fun _ => ⟨htraffic, hi, hw, hplan, hc, hq⟩, .of_nil hw, .of_nil hi⟩

theorem UnitsLegal.startTransaction {s : State} (h : UnitsLegal s) (l : LineId) : UnitsLegal (s.startTransaction l) := by
  refine h.same (fun hs => ?_) (by simp) (by simp) (by simp) (by simp)
  cases ho : s.operating with
  | running => exact .of_running (by simp [ho])
  | stopped => simpa [State.startTransaction, ho] using hs

theorem UnitsLegal.retry {s : State} (h : UnitsLegal s) (l : LineId) (t : InFlight) (o : TxOutcome) (r : PanelRec) :
    UnitsLegal (s.retry l t o r) := by
  refine h.same (fun hs => ?_) (by simp) (by simp) (by simp) (by simp)
  cases ho : s.operating with
  | running => exact .of_running (by simp [ho])
  | stopped => simpa [State.retry, ho] using hs

/-- The history, the panel records and the link port do not matter. -/
theorem UnitsLegal.silent {s t : State} (h : UnitsLegal s)
    (e : { t with history := s.history, panels := s.panels, link := s.link } = s) : UnitsLegal t := by
  rw [← e] at h
  exact h

theorem UnitsLegal.recordChange {s : State} (h : UnitsLegal s) (old new : PanelRec) (o : TxOutcome) :
    UnitsLegal (s.recordChange old new o) := by
  refine h.silent ?_
  unfold State.recordChange
  (repeat' split) <;> rfl

theorem UnitsLegal.reportHealth {s : State} (h : UnitsLegal s) (old new : PanelRec) (o : TxOutcome) :
    UnitsLegal (s.reportHealth old new o) := by
  refine h.silent ?_
  unfold State.reportHealth
  split <;> rfl

theorem UnitsLegal.askShown {s : State} (h : UnitsLegal s) (old new : PanelRec) : UnitsLegal (s.askShown old new) := by
  refine h.silent ?_
  unfold State.askShown
  split <;> rfl

theorem UnitsLegal.applyOutcome {s : State} (h : UnitsLegal s) (l : LineId) (t : InFlight) (j : Judged) (old : PanelRec) :
    UnitsLegal (s.applyOutcome l t j old) := by
  unfold State.applyOutcome
  dsimp only
  generalize updatePanel s.params (s.lines.get l).supply s.clock j old = new
  have recorded := h.recordChange old new j.outcome
  have replaced : UnitsLegal { s.recordChange old new j.outcome with
      panels := putPanel (s.recordChange old new j.outcome).panels new } := recorded
  have reported := (replaced.retry l t j.outcome new).reportHealth old new j.outcome
  refine UnitsLegal.askShown ?_ old new
  split
  · exact reported.afterSources false
  · exact reported.afterClosures _

theorem UnitsLegal.move {s t : State} (hm : BlockMove s t) (h : UnitsLegal s) : UnitsLegal t := by
  obtain ⟨hempty, hwarn, hinst⟩ := h
  have h : UnitsLegal s := ⟨hempty, hwarn, hinst⟩
  cases hm with
  | stays | mapGantry | mapSpeeds | mapBands | historyResume | sense => exact h
  | mapParams p hs =>
    obtain ⟨-, hi, -⟩ := hempty hs
    exact ⟨hempty, hwarn, .of_nil hi⟩
  | start initial hs hf =>
    refine ⟨.of_running rfl, .of_nil rfl, startInsts_nodup s, fun i hi => ?_⟩
    obtain ⟨hp, prog, hprog, hi⟩ := mem_startInsts.1 hi
    exact InstFits.of_newInsts hp hprog hi
  | stop hr hc => exact .of_cleared rfl rfl rfl rfl hc (fun l => by cases l <;> rfl)
  | detector b hr => exact h.applyDetector hr b
  | triggerSet p prog hoff =>
    exact ⟨hempty, hwarn.mono (.setSlot hoff _) rfl, hinst.mono (.setSlot hoff _) rfl rfl⟩
  | enableStopped p prog hs hprog hoff =>
    exact ⟨hempty, hwarn.mono (.setSlot hoff _) rfl, hinst.mono (.setSlot hoff _) rfl rfl⟩
  | enableRunning p prog hr hp hprog hoff =>
    exact ⟨.of_running hr, (hwarn.mono (.setSlot hoff _) rfl : WarningsLegal (s.setSlot p ⟨some prog, true⟩)),
      hinst.enable hp hprog hoff⟩
  | disableQuiet p => exact h.disableProgram p
  | disable p => exact (h.disableProgram p).afterSources true
  | rearm p =>
    refine ⟨fun hs => ?_, hwarn, hinst.rearm p⟩
    obtain ⟨h1, h2, h3⟩ := hempty hs
    exact ⟨h1, by simp [h2], h3⟩
  | warningClear w =>
    refine UnitsLegal.afterSources (s := s.endWarning w .cleared) ⟨fun hs => ?_, hwarn.drop w.gantry, hinst⟩ true
    obtain ⟨h1, h2, h3, h4⟩ := hempty hs
    exact ⟨h1, h2, by simp [State.endWarning, dropWarning, h3], h4⟩
  | closureSet b hr =>
    exact UnitsLegal.afterClosures (s := s.createClosure (newClosure s b)) ⟨.of_running hr, hwarn, hinst⟩ true
  | closureEnd c =>
    refine UnitsLegal.afterClosures (s := s.endRequested c)
      ⟨hempty.same rfl rfl rfl rfl rfl (fun hc => ?_) fun _ => rfl, hwarn, hinst⟩ true
    simp [State.endRequested, recomputeFull, hc]
  | closureRelease c =>
    refine UnitsLegal.afterClosures (s := s.enterReleasing c)
      ⟨hempty.same rfl rfl rfl rfl rfl (fun hc => ?_) fun _ => rfl, hwarn, hinst⟩ true
    simp [State.enterReleasing, recomputeFull, putClosure, hc]
  | operatorCap v => exact UnitsLegal.afterSources (s := { s with operatorCap := v }) h true
  | operatorLegend ls => exact UnitsLegal.afterSources (s := { s with legends := ls }) h false
  | freeze source =>
    unfold State.freeze
    split <;> exact h
  | lineQuiesce l => exact h.setLine l (by unfold quiesceLine; split <;> rfl)
  | lineResume l => exact h.setLine l (by unfold resumeLine; split <;> rfl)
  | clockAdvance hr => exact ⟨.of_running hr, hwarn, hinst⟩
  | planPeriod hr => exact ⟨.of_running hr, hwarn, hinst⟩
  | dwellExpiry hr =>
    exact UnitsLegal.afterClosures (s := s.closeDue) ⟨.of_running hr, hwarn, hinst⟩ false
  | establishLimit hr => exact ⟨.of_running hr, hwarn, hinst⟩
  | refresh l test hr => exact ⟨.of_running hr, hwarn, hinst⟩
  | transactionStart l => exact h.startTransaction l
  | phase l before after =>
    unfold State.advancePhase
    split
    · exact h
    · split
      · exact h.setLine l rfl
      · exact h
  | endUnheld l t => exact h.setLine l rfl
  | outcome l t r j =>
    exact (h.setLine l (v := { s.lines.get l with mode := .gap, inFlight := none }) rfl).applyOutcome l t j r
  | endGap l =>
    unfold State.endGap
    dsimp only
    split
    · exact h.setLine l rfl
    · exact h
  | supply l levels v => exact UnitsLegal.setLine (s := { s with sense := levels }) h l rfl
  | supplyBack l levels v hr => exact ⟨.of_running hr, hwarn, hinst⟩
  | hold => exact .of_cleared rfl rfl rfl rfl rfl (fun l => by cases l <;> rfl)
  | begin cause low => exact .of_cleared rfl rfl rfl rfl rfl (fun l => by cases l <;> rfl)
  | beginClear cause => exact .of_cleared rfl rfl rfl rfl rfl (fun l => by cases l <;> rfl)

/-- Settles O6: every move of the blocks keeps the warning table, the working records and what STOPPED leaves empty. -/
theorem warningsAndWorkingRecordsStayLegal : Obligations.WarningsAndWorkingRecordsStayLegal :=
  keptByEveryStep_of_moves (P := UnitsLegal) (fun _ _ h => h) (fun _ _ h => h) fun _ _ hm h => h.move hm

end Sys2Proof.Machine
end

section
/-! The panel lines and the panel records under every move of the blocks (R10, R124, R125). -/

namespace Sys2Proof.Machine

open Sys2Proof

/-! ## Queues of the panels held -/

/-- R124: the queue of a line, of panels held at these lines and addresses, has no panel twice. -/
structure QueueFits (addrs : List PanelAddr) (l : LineId) (queue : List PendEntry) : Prop where
  distinct : (queue.map (·.address)).Nodup
  held : ∀ e ∈ queue, ⟨l, e.address⟩ ∈ addrs

theorem QueueFits.nil (addrs : List PanelAddr) (l : LineId) : QueueFits addrs l [] := ⟨by simp, by simp⟩

/-- A line's queue is no longer than its panels are many. -/
theorem QueueFits.length_le {addrs : List PanelAddr} {l : LineId} {queue : List PendEntry} (h : QueueFits addrs l queue) :
    queue.length ≤ (addrs.filter (fun a => a.line == l)).length := by
  have hnodup : (queue.map (fun e => (⟨l, e.address⟩ : PanelAddr))).Nodup :=
    List.pairwise_map.2 ((List.pairwise_map.1 h.distinct).imp fun hne e => hne (congrArg PanelAddr.address e))
  have hsub : queue.map (fun e => (⟨l, e.address⟩ : PanelAddr)) ⊆ addrs.filter (fun a => a.line == l) := by
    intro a ha
    obtain ⟨e, he, rfl⟩ := List.mem_map.1 ha
    exact List.mem_filter.2 ⟨h.held e he, by simp⟩
  have := hnodup.length_le_of_subset hsub
  rwa [List.length_map] at this

theorem hasEntry_iff {queue : List PendEntry} {address : Nat} :
    hasEntry queue address = true ↔ address ∈ queue.map (·.address) := by
  simp [hasEntry, List.any_eq_true]

/-- Entries of one address apart from the queue's join it. -/
theorem QueueFits.append {addrs : List PanelAddr} {l : LineId} {queue more : List PendEntry}
    (h : QueueFits addrs l queue) (hmore : QueueFits addrs l more) (hnew : ∀ e ∈ more, hasEntry queue e.address = false) :
    QueueFits addrs l (queue ++ more) := by
  refine ⟨?_, fun e he => (List.mem_append.1 he).elim (h.held e) (hmore.held e)⟩
  rw [List.map_append, List.nodup_append]
  refine ⟨h.distinct, hmore.distinct, fun a ha b hb hab => ?_⟩
  obtain ⟨e, he, rfl⟩ := List.mem_map.1 hb
  have := hnew e he
  rw [hasEntry_iff.2 (hab ▸ ha)] at this
  cases this

/-- The entries keep their addresses: the queue fits still. -/
theorem QueueFits.map {addrs : List PanelAddr} {l : LineId} {queue : List PendEntry} (h : QueueFits addrs l queue)
    (f : PendEntry → PendEntry) (hf : ∀ e, (f e).address = e.address) : QueueFits addrs l (queue.map f) := by
  have : (queue.map f).map (·.address) = queue.map (·.address) := by
    rw [List.map_map]
    exact List.map_congr_left fun e _ => hf e
  refine ⟨this ▸ h.distinct, fun e he => ?_⟩
  obtain ⟨e', he', rfl⟩ := List.mem_map.1 he
  rw [hf]
  exact h.held e' he'

/-- R126: an entry placed for a panel held. -/
theorem QueueFits.placeEntry {addrs : List PanelAddr} {l : LineId} {queue : List PendEntry} (h : QueueFits addrs l queue)
    {address : Nat} (ha : ⟨l, address⟩ ∈ addrs) (cls : EntryClass) : QueueFits addrs l (placeEntry queue address cls) := by
  unfold Machine.placeEntry
  split
  · refine h.map _ fun e => ?_
    split <;> rfl
  · rename_i hne
    exact h.append ⟨List.pairwise_singleton _ _, by simpa using ha⟩ (by simpa using hne)

theorem QueueFits.erase {addrs : List PanelAddr} {l : LineId} {queue : List PendEntry} (h : QueueFits addrs l queue)
    (e : PendEntry) : QueueFits addrs l (queue.erase e) :=
  ⟨h.distinct.sublist (List.erase_sublist.map _), fun x hx => h.held x (List.mem_of_mem_erase hx)⟩

/-- Of distinct records, the addresses of those on one line are distinct. -/
theorem addresses_nodup {ps : List PanelRec} (h : (ps.map (·.addr)).Nodup) (l : LineId) :
    ((ps.filter (fun r => r.addr.line == l)).map (·.addr.address)).Nodup := by
  have hn : ((ps.filter (fun r => r.addr.line == l)).map (·.addr)).Nodup := h.sublist (List.filter_sublist.map _)
  rw [show (fun r : PanelRec => r.addr.address) = PanelAddr.address ∘ PanelRec.addr from rfl, ← List.map_map]
  refine List.pairwise_map.2 (hn.imp_of_mem fun {a b} ha hb hne hab => hne ?_)
  have line : ∀ c ∈ (ps.filter (fun r => r.addr.line == l)).map (·.addr), c.line = l := by
    intro c hc
    obtain ⟨r, hr, rfl⟩ := List.mem_map.1 hc
    simpa using (List.mem_filter.1 hr).2
  obtain ⟨la, aa⟩ := a
  obtain ⟨lb, ab⟩ := b
  have h1 := line _ ha
  have h2 := line _ hb
  subst h1 h2
  exact congrArg (PanelAddr.mk _) hab

/-- Entries for some of the panels of a line. -/
theorem QueueFits.of_panels {ps : List PanelRec} (h : (ps.map (·.addr)).Nodup) (l : LineId) (test : PanelRec → Bool)
    (cls : EntryClass) :
    QueueFits (ps.map (·.addr)) l
      ((ps.filter (fun r => r.addr.line == l && test r)).map (fun r => ⟨r.addr.address, cls⟩)) := by
  constructor
  · rw [List.map_map]
    refine (addresses_nodup h l).sublist (List.Sublist.map _ ?_)
    rw [List.filter_congr (q := fun r => decide (test r = true) && (r.addr.line == l))
      (fun r _ => by rw [Bool.and_comm, Bool.decide_eq_true]), ← List.filter_filter]
    exact List.filter_sublist
  · intro e he
    obtain ⟨r, hr, rfl⟩ := List.mem_map.1 he
    obtain ⟨hr, hl⟩ := List.mem_filter.1 hr
    simp only [Bool.and_eq_true, beq_iff_eq] at hl
    refine List.mem_map.2 ⟨r, hr, ?_⟩
    obtain ⟨hl, -⟩ := hl
    subst hl
    rfl

/-! ## Lines and panel records -/

/-- R124: a line of panels held at these lines and addresses. -/
structure LineFits (addrs : List PanelAddr) (l : LineId) (line : Line) : Prop where
  busy : line.mode = .busy ↔ line.inFlight.isSome = true
  quiesce : line.quiescePending = true → line.mode = .busy ∨ line.mode = .gap
  queue : QueueFits addrs l line.queue

/-- R10, R125: the panel records. -/
structure PanelsFit (ps : List PanelRec) : Prop where
  panels : (ps.map (·.panel)).Nodup
  addrs : (ps.map (·.addr)).Nodup
  room : ∀ l, ((ps.map (·.addr)).filter (fun a => a.line == l)).length ≤ 64
  counts : ∀ r ∈ ps, r.failCount ≤ 15 ∧ r.goodCount ≤ 15

/-- What every step keeps of the panel lines. -/
def LinesFit (s : State) : Prop :=
  PanelsFit s.panels ∧ ∀ l, LineFits (s.panels.map (·.addr)) l (s.lines.get l)

theorem panelOn_isSome {ps : List PanelRec} {l : LineId} {a : Nat} :
    (panelOn ps l a).isSome = true ↔ ⟨l, a⟩ ∈ ps.map (·.addr) := by
  simp [panelOn, List.find?_isSome]

theorem panelsOfLine_length (ps : List PanelRec) (l : LineId) :
    (ps.filter (fun r => r.addr.line == l)).length = ((ps.map (·.addr)).filter (fun a => a.line == l)).length := by
  rw [List.filter_map, List.length_map]
  rfl

/-- The invariant as the obligation states it; the queue's bound follows from the line's. -/
theorem linesFit_iff (s : State) :
    (PanelsDistinct s ∧ LinesLegal s ∧ QueuesBounded s ∧ CountsLegal s) ↔ LinesFit s := by
  constructor
  · rintro ⟨⟨hp, ha⟩, hlines, hqueues, hcounts⟩
    refine ⟨⟨hp, ha, fun l => panelsOfLine_length s.panels l ▸ (hqueues l).2.1, hcounts⟩, fun l => ?_⟩
    obtain ⟨hbusy, hquiesce, hdistinct⟩ := hlines l
    exact ⟨hbusy, hquiesce, hdistinct, fun e he => panelOn_isSome.1 ((hqueues l).2.2 e he)⟩
  · rintro ⟨⟨hp, ha, hroom, hcounts⟩, hlines⟩
    refine ⟨⟨hp, ha⟩, fun l => ?_, fun l => ?_, hcounts⟩
    · obtain ⟨hbusy, hquiesce, hqueue⟩ := hlines l
      exact ⟨hbusy, hquiesce, hqueue.distinct⟩
    · refine ⟨Nat.le_trans (hlines l).queue.length_le (hroom l), ?_,
        fun e he => panelOn_isSome.2 ((hlines l).queue.held e he)⟩
      rw [panelsOfLine_length]
      exact hroom l

theorem LineFits.withQueue {addrs : List PanelAddr} {l : LineId} {line : Line} (h : LineFits addrs l line)
    {queue : List PendEntry} (hq : QueueFits addrs l queue) : LineFits addrs l { line with queue := queue } :=
  ⟨h.busy, h.quiesce, hq⟩

/-- A line as a reset leaves it. -/
theorem LineFits.rest (addrs : List PanelAddr) (l : LineId) (supply : Supply) : LineFits addrs l (Line.rest supply) :=
  ⟨by simp [Line.rest], by simp [Line.rest], .nil addrs l⟩

theorem LinesFit.same {s t : State} (h : LinesFit s) (hp : t.panels = s.panels) (hl : t.lines = s.lines) : LinesFit t := by
  unfold LinesFit
  rw [hp, hl]
  exact h

theorem LinesFit.setLine {s : State} (h : LinesFit s) {l : LineId} {v : Line}
    (hv : LineFits (s.panels.map (·.addr)) l v) : LinesFit (s.setLine l v) := by
  refine ⟨h.1, fun m => ?_⟩
  rw [State.setLine, PerLine.get_set]
  split
  · rename_i hm
    exact hm ▸ hv
  · exact h.2 m

/-! ## What a change of sources hands on -/

theorem panelAt_mem {ps : List PanelRec} {g p : Nat} {r : PanelRec} (h : panelAt ps g p = some r) :
    r ∈ ps ∧ r.panel = ⟨g, p⟩ :=
  ⟨List.mem_of_find?_eq_some h, by simpa using List.find?_some h⟩

/-- R126: a changed entry handed on is placed for a panel held. -/
theorem QueueFits.queueAfter {ps : List PanelRec} {l : LineId} {queue : List PendEntry}
    (h : QueueFits (ps.map (·.addr)) l queue) (e : AspectEntry) :
    QueueFits (ps.map (·.addr)) l (queueAfter ps l queue e) := by
  unfold Machine.queueAfter
  split
  · rename_i r hr
    split
    · rename_i hl
      subst hl
      exact h.placeEntry (List.mem_map.2 ⟨r, (panelAt_mem hr).1, rfl⟩) _
    · exact h
  · exact h

theorem QueueFits.handedOn {ps : List PanelRec} {l : LineId} (es : List AspectEntry) {queue : List PendEntry}
    (h : QueueFits (ps.map (·.addr)) l queue) :
    QueueFits (ps.map (·.addr)) l (es.foldl (Machine.queueAfter ps l) queue) := by
  induction es generalizing queue with
  | nil => exact h
  | cons e es ih => exact ih (h.queueAfter e)

theorem LinesFit.resolve {s : State} (h : LinesFit s) : LinesFit s.resolve := by
  refine ⟨h.1, fun l => ?_⟩
  rw [State.resolve_handedOn s l]
  exact (h.2 l).withQueue (QueueFits.handedOn _ (h.2 l).queue)

theorem LinesFit.afterSources {s : State} (h : LinesFit s) (demand : Bool) : LinesFit (s.afterSources demand) := by
  unfold State.afterSources
  split
  · have planned : LinesFit (if demand then s.runPlan false none else s) := by
      split
      · exact h.same rfl rfl
      · exact h
    exact planned.resolve.same rfl rfl
  · exact h

theorem LinesFit.afterClosures {s : State} (h : LinesFit s) (demand : Bool) : LinesFit (s.afterClosures demand) := by
  unfold State.afterClosures
  split
  · exact LinesFit.afterSources (s := s.workClosures) (h.same (by simp) (by simp)) _
  · exact h

/-! ## Panel records under an outcome (R132, R135) -/

theorem updatePanel_place (p : Params) (supply : Supply) (now : Clock) (j : Judged) (r : PanelRec) :
    (updatePanel p supply now j r).panel = r.panel ∧ (updatePanel p supply now j r).addr = r.addr := by
  unfold updatePanel countOutcome countGood countFailure
  (repeat' split) <;> exact ⟨rfl, rfl⟩

/-- The counts of R135 stop at 15. -/
theorem updatePanel_counts (p : Params) (supply : Supply) (now : Clock) (j : Judged) {r : PanelRec}
    (h : r.failCount ≤ 15 ∧ r.goodCount ≤ 15) :
    (updatePanel p supply now j r).failCount ≤ 15 ∧ (updatePanel p supply now j r).goodCount ≤ 15 := by
  unfold updatePanel countOutcome countGood countFailure
  (repeat' split) <;> simp only [recordOutcome, h, Nat.min_le_right, Nat.zero_le, and_self]

theorem putPanel_addrs (ps : List PanelRec) (r : PanelRec) : (putPanel ps r).map (·.addr) = ps.map (·.addr) := by
  rw [putPanel, List.map_map]
  refine List.map_congr_left fun q _ => ?_
  rw [Function.comp_apply]
  split
  · rename_i h
    exact h.symm
  · rfl

/-- Distinct records are found by their line and address. -/
theorem eq_of_addr {ps : List PanelRec} (h : (ps.map (·.addr)).Nodup) {q r : PanelRec} (hq : q ∈ ps) (hr : r ∈ ps)
    (ha : q.addr = r.addr) : q = r := by
  induction ps with
  | nil => cases hq
  | cons p ps ih =>
    obtain ⟨hp, hps⟩ := List.nodup_cons.1 h
    rcases List.mem_cons.1 hq with rfl | hq' <;> rcases List.mem_cons.1 hr with rfl | hr'
    · rfl
    · exact (hp (List.mem_map.2 ⟨r, hr', ha.symm⟩)).elim
    · exact (hp (List.mem_map.2 ⟨q, hq', ha⟩)).elim
    · exact ih hps hq' hr'

theorem putPanel_panels {ps : List PanelRec} (h : (ps.map (·.addr)).Nodup) {old new : PanelRec} (hold : old ∈ ps)
    (hp : new.panel = old.panel) (ha : new.addr = old.addr) : (putPanel ps new).map (·.panel) = ps.map (·.panel) := by
  rw [putPanel, List.map_map]
  refine List.map_congr_left fun q hq => ?_
  rw [Function.comp_apply]
  split
  · rename_i hqa
    rw [hp, eq_of_addr h hq hold (hqa.trans ha)]
  · rfl

/-- One record replaced by what an outcome makes of it (R134). -/
theorem PanelsFit.putPanel {ps : List PanelRec} (h : PanelsFit ps) {old new : PanelRec} (hold : old ∈ ps)
    (hp : new.panel = old.panel) (ha : new.addr = old.addr) (hc : new.failCount ≤ 15 ∧ new.goodCount ≤ 15) :
    PanelsFit (putPanel ps new) := by
  refine ⟨?_, ?_, ?_, fun r hr => ?_⟩
  · rw [putPanel_panels h.addrs hold hp ha]
    exact h.panels
  · rw [putPanel_addrs]
    exact h.addrs
  · rw [putPanel_addrs]
    exact h.room
  · obtain ⟨q, hq, rfl⟩ := List.mem_map.1 hr
    split
    · exact hc
    · exact h.counts q hq

theorem LinesFit.putPanel {s : State} (h : LinesFit s) {old new : PanelRec} (hold : old ∈ s.panels)
    (hp : new.panel = old.panel) (ha : new.addr = old.addr) (hc : new.failCount ≤ 15 ∧ new.goodCount ≤ 15) :
    LinesFit { s with panels := Machine.putPanel s.panels new } := by
  refine ⟨h.1.putPanel hold hp ha hc, fun l => ?_⟩
  change LineFits ((Machine.putPanel s.panels new).map (·.addr)) l (s.lines.get l)
  rw [putPanel_addrs]
  exact h.2 l

theorem LinesFit.retry {s : State} (h : LinesFit s) {l : LineId} {t : InFlight}
    (ht : ⟨l, t.address⟩ ∈ s.panels.map (·.addr)) (o : TxOutcome) (r : PanelRec) : LinesFit (s.retry l t o r) := by
  unfold State.retry
  split
  · exact h.setLine ((h.2 l).withQueue ((h.2 l).queue.placeEntry ht t.cls))
  · exact h

theorem LinesFit.applyOutcome {s : State} (h : LinesFit s) {l : LineId} {t : InFlight} {old : PanelRec}
    (hold : panelOn s.panels l t.address = some old) (j : Judged) : LinesFit (s.applyOutcome l t j old) := by
  unfold State.applyOutcome
  dsimp only
  obtain ⟨hp, ha⟩ := updatePanel_place s.params (s.lines.get l).supply s.clock j old
  have hc := updatePanel_counts s.params (s.lines.get l).supply s.clock j (h.1.counts old (panelOn_some hold).1)
  generalize updatePanel s.params (s.lines.get l).supply s.clock j old = new at hp ha hc ⊢
  have recorded : LinesFit (s.recordChange old new j.outcome) := h.same (by simp) (by simp)
  have hmem : old ∈ (s.recordChange old new j.outcome).panels := by
    rw [State.recordChange_panels]
    exact (panelOn_some hold).1
  have replaced := recorded.putPanel hmem hp ha hc
  have reported : LinesFit (State.reportHealth (State.retry { s.recordChange old new j.outcome with
      panels := Machine.putPanel (s.recordChange old new j.outcome).panels new } l t j.outcome new) old new j.outcome) := by
    refine (replaced.retry ?_ j.outcome new).same (State.reportHealth_panels ..) (State.reportHealth_lines ..)
    change _ ∈ (Machine.putPanel (s.recordChange old new j.outcome).panels new).map (·.addr)
    rw [putPanel_addrs, State.recordChange_panels]
    exact panelOn_isSome.1 (by rw [hold]; rfl)
  refine LinesFit.same (s := if new.panel.panel = 0 then _ else _) ?_ (State.askShown_panels ..) (State.askShown_lines ..)
  split
  · exact reported.afterSources false
  · exact reported.afterClosures _

/-! ## The line's own events (R128 to R131, R141 to R143) -/

/-- R131: a transaction that ends leaves GAP with nothing in flight. -/
theorem LineFits.gap {addrs : List PanelAddr} {l : LineId} {line : Line} (h : LineFits addrs l line) :
    LineFits addrs l { line with mode := .gap, inFlight := none } :=
  ⟨by simp, fun _ => .inr rfl, h.queue⟩

theorem LineFits.quiesceLine {addrs : List PanelAddr} {l : LineId} {line : Line} (h : LineFits addrs l line) :
    LineFits addrs l (quiesceLine line) := by
  obtain ⟨hbusy, hquiesce, hqueue⟩ := h
  unfold Machine.quiesceLine
  split
  · rename_i hm
    exact ⟨by simpa [hm] using hbusy, by simpa [hm] using hquiesce, hqueue⟩
  · rename_i hm
    exact ⟨hbusy, fun _ => .inl hm, hqueue⟩
  · rename_i hm
    exact ⟨hbusy, fun _ => .inr hm, hqueue⟩
  · exact ⟨hbusy, hquiesce, hqueue⟩

theorem LineFits.resumeLine {addrs : List PanelAddr} {l : LineId} {line : Line} (h : LineFits addrs l line) :
    LineFits addrs l (resumeLine line) := by
  obtain ⟨hbusy, hquiesce, hqueue⟩ := h
  unfold Machine.resumeLine
  split
  · rename_i hm
    exact ⟨by simpa [hm] using hbusy, by simpa [hm] using hquiesce, hqueue⟩
  · exact ⟨hbusy, by simp, hqueue⟩
  · exact ⟨hbusy, by simp, hqueue⟩
  · exact ⟨hbusy, hquiesce, hqueue⟩

theorem LinesFit.endGap {s : State} (h : LinesFit s) (l : LineId) : LinesFit (s.endGap l) := by
  unfold State.endGap
  dsimp only
  split
  · rename_i hm
    obtain ⟨hbusy, -, hqueue⟩ := h.2 l
    have hidle : (s.lines.get l).inFlight.isSome = false := by simpa [hm] using hbusy
    refine h.setLine ⟨?_, by simp, hqueue⟩
    simp only [hidle]
    split <;> simp
  · exact h

theorem LinesFit.advancePhase {s : State} (h : LinesFit s) (l : LineId) (before after : Phase) :
    LinesFit (s.advancePhase l before after) := by
  unfold State.advancePhase
  split
  · exact h
  · rename_i t ht
    split
    · obtain ⟨hbusy, hquiesce, hqueue⟩ := h.2 l
      exact h.setLine ⟨by simpa [ht] using hbusy, hquiesce, hqueue⟩
    · exact h

theorem LinesFit.startTransaction {s : State} (h : LinesFit s) (l : LineId) : LinesFit (s.startTransaction l) := by
  unfold State.startTransaction
  dsimp only
  split
  · split
    · exact h
    · split
      · exact h
      · exact h.setLine ⟨by simp, fun _ => .inl rfl, (h.2 l).queue.erase _⟩
  · exact h

theorem LinesFit.refresh {s : State} (h : LinesFit s) (l : LineId) (test : PanelRec → Bool) :
    LinesFit (s.refresh l test) := by
  refine h.setLine ((h.2 l).withQueue ((h.2 l).queue.append ?_ fun e he => ?_))
  · unfold refreshEntries
    simp only [Bool.and_assoc]
    exact QueueFits.of_panels h.1.addrs l _ .routine
  · obtain ⟨r, hr, rfl⟩ := List.mem_map.1 he
    have := (List.mem_filter.1 hr).2
    simp only [unaddressed, Bool.and_eq_true, Bool.not_eq_true'] at this
    exact this.1.2.1

theorem LinesFit.crossSupply {s : State} (h : LinesFit s) (l : LineId) (v : Supply) : LinesFit (s.crossSupply l v) :=
  (h.setLine (v := { s.lines.get l with supply := v }) ⟨(h.2 l).busy, (h.2 l).quiesce, (h.2 l).queue⟩).same rfl rfl

/-! ## START (R10, R12) -/

/-- Every check of a list passes. -/
theorem firstFault_eq_none {checks : List (Bool × MapFault)} :
    firstFault checks = none ↔ ∀ c ∈ checks, c.1 = true := by
  induction checks with
  | nil => simp [firstFault]
  | cons c checks ih =>
    obtain ⟨holds, f⟩ := c
    unfold firstFault
    cases holds <;> simp [ih]

/-- Item 6: no pair is repeated. -/
theorem repeatedPair_eq_none {seen : List PanelAddr} {panels : List (PanelId × PanelAddr)} :
    repeatedPair seen panels = none ↔ (panels.map Prod.snd).Nodup ∧ ∀ a ∈ seen, a ∉ panels.map Prod.snd := by
  induction panels generalizing seen with
  | nil => simp [repeatedPair]
  | cons x panels ih =>
    obtain ⟨p, a⟩ := x
    unfold repeatedPair
    split
    · rename_i h
      simp only [List.contains_iff_mem] at h
      simp only [List.map_cons, reduceCtorEq, false_iff, not_and]
      exact fun _ hs => hs a h (by simp)
    · rename_i h
      simp only [List.contains_iff_mem] at h
      rw [ih]
      simp only [List.mem_cons, List.map_cons, List.nodup_cons, forall_eq_or_imp, not_or]
      constructor
      · rintro ⟨hn, ha, hs⟩
        exact ⟨⟨ha, hn⟩, fun b hb => ⟨fun e => h (e ▸ hb), hs b hb⟩⟩
      · rintro ⟨⟨ha, hn⟩, hs⟩
        exact ⟨hn, ha, fun b hb => (hs b hb).2⟩

/-- Item 7: no line is crowded. -/
theorem crowdedLine_eq_none {panels : List (PanelId × PanelAddr)} :
    crowdedLine panels = none ↔ ∀ l, (panels.filter (fun x => x.2.line == l)).length ≤ 64 := by
  simp only [crowdedLine, Option.map_eq_none_iff, List.find?_eq_none, decide_eq_true_eq, Nat.not_lt, Config.linePanels]
  exact ⟨fun h l => h l (by cases l <;> decide), fun h l _ => h l⟩

theorem State.mapFault_panels {s : State} (h : s.mapFault = none) :
    ((mapPanels s.gantries).map Prod.snd).Nodup
      ∧ ∀ l, ((mapPanels s.gantries).filter (fun x => x.2.line == l)).length ≤ 64 := by
  rw [State.mapFault, firstFault_eq_none] at h
  have hpair := h (noneFound 6 (repeatedPair [] (mapPanels s.gantries))) (by simp)
  have hline := h (noneFound 7 (crowdedLine (mapPanels s.gantries))) (by simp)
  simp only [noneFound, Option.isNone_iff_eq_none] at hpair hline
  exact ⟨(repeatedPair_eq_none.1 hpair).1, crowdedLine_eq_none.1 hline⟩

theorem mem_gantryPanels {g : Nat} {r : GantryRec} {x : PanelId × PanelAddr} (h : x ∈ gantryPanels g r) :
    x.1.gantry = g := by
  unfold gantryPanels at h
  rcases List.mem_append.1 h with h | h
  · obtain ⟨y, -, rfl⟩ := List.mem_map.1 h
    rfl
  · cases hm : r.message <;> simp_all

/-- The panels of a gantry are distinct: the lanes by number, the message panel as panel 0. -/
theorem gantryPanels_nodup (g : Nat) (r : GantryRec) : ((gantryPanels g r).map Prod.fst).Nodup := by
  have lanes : (((r.lanes.zipIdx.map (fun x => ((⟨g, x.2 + 1⟩ : PanelId), x.1))).map Prod.fst)).Nodup := by
    have : (r.lanes.zipIdx.map (fun x => ((⟨g, x.2 + 1⟩ : PanelId), x.1))).map Prod.fst
        = (List.range r.lanes.length).map (fun k => (⟨g, k + 1⟩ : PanelId)) := by
      rw [List.range_eq_range', ← List.zipIdx_map_snd 0 r.lanes, List.map_map, List.map_map]
      rfl
    rw [this]
    exact List.pairwise_map.2 (List.nodup_range.imp fun hne h => hne (by simpa using h))
  unfold gantryPanels
  rw [List.map_append, List.nodup_append]
  refine ⟨lanes, ?_, ?_⟩
  · cases r.message <;> simp
  · intro p hp q hq hpq
    obtain ⟨x, hx, rfl⟩ := List.mem_map.1 hp
    obtain ⟨y, -, rfl⟩ := List.mem_map.1 hx
    subst hpq
    cases hm : r.message <;> simp_all

theorem mapPanels_nodup (table : List (Option GantryRec)) : ((mapPanels table).map Prod.fst).Nodup := by
  unfold mapPanels
  rw [List.map_flatMap, List.Nodup, List.pairwise_flatMap]
  constructor
  · rintro ⟨r, g⟩ -
    cases r with
    | none => simp
    | some r => exact gantryPanels_nodup g r
  · have hidx : (table.zipIdx.map Prod.snd).Nodup := by
      rw [List.zipIdx_map_snd]
      exact List.nodup_range'
    refine (List.pairwise_map.1 hidx).imp ?_
    rintro ⟨r, g⟩ ⟨r', g'⟩ hne p hp p' hp' rfl
    obtain ⟨x, hx, rfl⟩ := List.mem_map.1 hp
    obtain ⟨y, hy, hxy⟩ := List.mem_map.1 hp'
    cases r with
    | none => cases hx
    | some r =>
      cases r' with
      | none => cases hy
      | some r' =>
        have hgantry : y.1.gantry = x.1.gantry := congrArg PanelId.gantry hxy
        exact hne ((mem_gantryPanels hx).symm.trans (hgantry.symm.trans (mem_gantryPanels hy)))

theorem LinesFit.startRun {s : State} (h : LinesFit s) (hf : s.mapFault = none) (initial : Nat) :
    LinesFit (s.startRun initial) := by
  obtain ⟨hnodup, hroom⟩ := State.mapFault_panels hf
  have hpanels : (s.startRun initial).panels = s.startPanels := rfl
  have haddrs : s.startPanels.map (·.addr) = (mapPanels s.gantries).map Prod.snd := by
    rw [State.startPanels, List.map_map]
    rfl
  have hids : s.startPanels.map (·.panel) = (mapPanels s.gantries).map Prod.fst := by
    rw [State.startPanels, List.map_map]
    rfl
  have hlines : ∀ l, (s.startRun initial).lines.get l
      = { s.lines.get l with queue := startQueue s.startPanels l } := fun l => by cases l <;> rfl
  unfold LinesFit
  rw [hpanels]
  refine ⟨⟨hids ▸ mapPanels_nodup _, haddrs ▸ hnodup, fun l => ?_, fun r hr => ?_⟩, fun l => ?_⟩
  · rw [haddrs, List.filter_map, List.length_map]
    exact hroom l
  · obtain ⟨x, -, rfl⟩ := List.mem_map.1 hr
    exact ⟨Nat.zero_le _, Nat.zero_le _⟩
  · rw [hlines]
    have hq := QueueFits.of_panels (haddrs ▸ hnodup) l (fun _ => true) .safety
    simp only [Bool.and_true] at hq
    exact ⟨(h.2 l).busy, (h.2 l).quiesce, hq⟩

/-! ## Every move -/

/-- A reset holds no panel and leaves every line at rest. -/
theorem LinesFit.of_cleared {t : State} (hp : t.panels = []) (hl : ∀ l, ∃ supply, t.lines.get l = Line.rest supply) :
    LinesFit t := by
  unfold LinesFit
  rw [hp]
  refine ⟨⟨by simp, by simp, by simp, by simp⟩, fun l => ?_⟩
  obtain ⟨supply, hs⟩ := hl l
  rw [hs]
  exact .rest _ _ _

theorem LinesFit.move {s t : State} (hm : BlockMove s t) (h : LinesFit s) : LinesFit t := by
  cases hm with
  | stays | mapParams | mapGantry | mapSpeeds | mapBands | triggerSet | enableStopped | enableRunning | disableQuiet | rearm
  | historyResume | clockAdvance | establishLimit | sense => exact h
  | start initial hs hf => exact h.startRun hf initial
  | stop =>
    refine ⟨h.1, fun l => ?_⟩
    have : s.stopBlocks.lines.get l = { s.lines.get l with queue := [] } := by cases l <;> rfl
    rw [this]
    exact (h.2 l).withQueue (.nil _ l)
  | detector b hr =>
    have read : LinesFit ((s.recordTraffic b).evaluateGantry (u8At b 0)) :=
      h.same (by simp) (by simp)
    unfold State.applyDetector
    dsimp only
    split
    · exact read.afterSources true
    · exact read
  | disable p => exact LinesFit.afterSources (s := s.disableProgram p) h true
  | warningClear w => exact LinesFit.afterSources (s := s.endWarning w .cleared) h true
  | closureSet b => exact LinesFit.afterClosures (s := s.createClosure (newClosure s b)) h true
  | closureEnd c => exact LinesFit.afterClosures (s := s.endRequested c) h true
  | closureRelease c => exact LinesFit.afterClosures (s := s.enterReleasing c) h true
  | operatorCap v => exact LinesFit.afterSources (s := { s with operatorCap := v }) h true
  | operatorLegend ls => exact LinesFit.afterSources (s := { s with legends := ls }) h false
  | freeze source => exact h.same (by simp) (by simp)
  | lineQuiesce l => exact h.setLine (h.2 l).quiesceLine
  | lineResume l => exact h.setLine (h.2 l).resumeLine
  | planPeriod =>
    exact (LinesFit.resolve (s := State.runPlan { s with
      planTimer := s.planTimer - s.params.planPeriod
      traffic := s.traffic.map (ageRec s.params.staleLimit) } true none) h).same rfl rfl
  | dwellExpiry => exact LinesFit.afterClosures (s := s.closeDue) h false
  | refresh l test => exact h.refresh l test
  | transactionStart l => exact h.startTransaction l
  | phase l before after => exact h.advancePhase l before after
  | endUnheld l t => exact h.setLine (h.2 l).gap
  | outcome l t r j ht hr => exact (h.setLine (h.2 l).gap).applyOutcome hr j
  | endGap l => exact h.endGap l
  | supply l levels v => exact LinesFit.crossSupply (s := { s with sense := levels }) h l v
  | supplyBack l levels v => exact (LinesFit.crossSupply (s := { s with sense := levels }) h l v).refresh l _
  | hold => exact .of_cleared rfl (fun l => by cases l <;> exact ⟨_, rfl⟩)
  | begin cause low => exact .of_cleared rfl (fun l => by cases l <;> exact ⟨_, rfl⟩)
  | beginClear cause => exact .of_cleared rfl (fun l => by cases l <;> exact ⟨_, rfl⟩)

/-- Settles O7: every move of the blocks keeps the panel lines and the panel records legal. -/
theorem linesStayLegal : Obligations.LinesStayLegal :=
  keptByEveryStep_of_moves
    (P := fun s => PanelsDistinct s ∧ LinesLegal s ∧ QueuesBounded s ∧ CountsLegal s)
    (fun _ _ h => h) (fun _ _ h => h) fun s t hm h => (linesFit_iff t).2 (LinesFit.move hm ((linesFit_iff s).1 h))

end Sys2Proof.Machine
end

section
/-! The resets (R15 to R19, R139, R145, R170, R171): the part begins again from a cleared runtime state. -/

namespace Sys2Proof.Machine

open Sys2Proof

/-! ## The reports of a reset -/

/-- The link port when the part has begun again: RESTART under way, the LINE_STATE reports waiting (R19, R139, R163). -/
def begunLink (s : State) (cause : ResetCause) : Link :=
  ⟨.hunt, [], lowAtReset s, [], false, false, 0, 0, some ⟨⟨0xF0, 0, [0, 0, 0, 0, cause.code]⟩, false, false⟩, false⟩

/-- LINE_STATE reports that find room join the urgent ones (R165). -/
theorem Link.placeAll_lineStates (l : Link) (f : LineId → Report) (ids : List LineId)
    (hf : ∀ m, ∃ c x mode qp n, f m = .lineState c m x mode qp n)
    (hroom : l.urgent.length + l.routine.length + ids.length ≤ 32) :
    (ids.map f).foldl Link.place l = { l with urgent := l.urgent ++ ids.map f } := by
  induction ids generalizing l with
  | nil => simp
  | cons m ids ih =>
    rw [List.length_cons] at hroom
    obtain ⟨c, x, mode, qp, n, hm⟩ := hf m
    have hplace : l.place (f m) = { l with urgent := l.urgent ++ [f m] } := by
      rw [hm, Link.place, Link.placeUrgent, if_pos]
      simp [Link.hasRoom, Config.reportCapacity]
      omega
    rw [List.map_cons, List.foldl_cons, hplace, ih]
    · simp
    · simp only [List.length_append, List.length_cons, List.length_nil]
      omega

/-- The lines found LOW are those sensed below 19.0 V (R139). -/
theorem State.lowReports_senseLines (s : State) (hclock : s.clock = 0)
    (hlines : ∀ l, ∃ supply, s.lines.get l = Line.rest supply) : s.senseLines.lowReports = lowAtReset s := by
  have line : ∀ l, s.senseLines.lines.get l = Line.rest (supplyOf (s.sense.get l)) := by
    intro l
    obtain ⟨supply, h⟩ := hlines l
    simp [State.senseLines, h, Line.rest]
  have low : ∀ l, ((s.senseLines.lines.get l).supply == .low) = decide (s.sense.get l < 19000) := by
    intro l
    rw [line, Bool.eq_iff_iff]
    simp [Line.rest, supplyOf, Config.supplyLow]
  unfold State.lowReports lowAtReset lineIds
  simp only [low]
  refine List.map_congr_left fun l hl => ?_
  have hl : s.sense.get l < 19000 := by simpa using (List.mem_filter.1 hl).2
  unfold State.lineReport
  rw [line]
  simp [State.senseLines, hclock, Line.rest, supplyOf, Config.supplyLow, hl]

/-- The part begins again: from a cleared link port, clock and lines, with NRST high, only the cause, the supply states and the
link port are written (R15, R19, R139, R171). -/
theorem State.restart_eq {s : State} (cause : ResetCause) (hlink : s.link = Link.rest) (hnrst : s.nrstLow = false)
    (hclock : s.clock = 0) (hlines : ∀ l, ∃ supply, s.lines.get l = Line.rest supply) :
    s.restart cause = { State.senseLines { s with resetCause := cause } with link := begunLink s cause } := by
  have hlow : (State.senseLines { s with resetCause := cause }).lowReports = lowAtReset s :=
    State.lowReports_senseLines { s with resetCause := cause } hclock hlines
  have hrestart : Link.place Link.rest (.restart 0 cause) = { Link.rest with urgent := [.restart 0 cause] } := rfl
  have hids : ([.a, .b, .c, .d].filter (fun l => decide (s.sense.get l < 19000))).length ≤ 4 :=
    List.length_filter_le _ _
  have hall : (lowAtReset s).foldl Link.place { Link.rest with urgent := [.restart 0 cause] }
      = { Link.rest with urgent := .restart 0 cause :: lowAtReset s } := by
    unfold lowAtReset
    rw [Link.placeAll_lineStates _ _ _ fun m => ⟨_, _, _, _, _, rfl⟩]
    · rfl
    · simp only [Link.rest, List.length_cons, List.length_nil]
      omega
  unfold State.restart
  dsimp only
  rw [hlow]
  simp only [State.transmit, State.reports, State.report, State.senseLines, hnrst, hclock, hlink, hrestart, hall]
  rfl

/-- A cleared state begun again meets `Restarted`. -/
theorem Restarted.of_clear {s r : State} (cause : ResetCause) (hcleared : RuntimeCleared r) (hlink : r.link = Link.rest)
    (hnrst : r.nrstLow = false) (hlines : ∀ l, ∃ supply, r.lines.get l = Line.rest supply) (hsense : r.sense = s.sense) :
    Restarted s (r.restart cause) cause := by
  obtain ⟨ho, hclock, htimer, hcap, htraffic, hinsts, hwarn, hplan, hclosures, harrow, hcross, haspects, hpanels,
    hlegends, -⟩ := hcleared
  rw [State.restart_eq cause hlink hnrst hclock hlines]
  have line : ∀ l, (State.senseLines { r with resetCause := cause }).lines.get l
      = ⟨.idle, false, if s.sense.get l < 19000 then .low else .normal, [], none⟩ := by
    intro l
    obtain ⟨supply, h⟩ := hlines l
    simp [State.senseLines, h, Line.rest, supplyOf, Config.supplyLow, hsense]
  refine ⟨⟨ho, hclock, htimer, hcap, htraffic, hinsts, hwarn, hplan, hclosures, harrow, hcross, haspects, hpanels,
    hlegends, fun l => ?_⟩, rfl, hnrst, line, ?_⟩
  · exact Line.transmitEnable_none (by rw [line])
  · simp [begunLink, lowAtReset, hsense]

/-- What a reset clears is cleared (R17, R18, R145, R171). -/
theorem State.clearRuntime_cleared (s : State) : RuntimeCleared s.clearRuntime :=
  ⟨rfl, rfl, rfl, rfl, rfl, rfl, rfl, rfl, rfl, rfl, rfl, rfl, rfl, rfl, fun l => by cases l <;> rfl⟩

theorem State.clearRuntime_lines (s : State) (l : LineId) :
    s.clearRuntime.lines.get l = Line.rest (s.lines.get l).supply := by cases l <;> rfl

/-- A pin or host reset: cleared, begun again, and the rest kept (R17, R19). -/
theorem State.restart_cleared {s r : State} (cause : ResetCause) (hr : r = { s.clearRuntime with nrstLow := false }) :
    KeptThroughReset s (r.restart cause) ∧ Restarted s (r.restart cause) cause := by
  have hlines : ∀ l, ∃ supply, r.lines.get l = Line.rest supply := by
    subst hr
    exact fun l => ⟨_, s.clearRuntime_lines l⟩
  subst hr
  refine ⟨?_, Restarted.of_clear cause s.clearRuntime_cleared rfl rfl hlines rfl⟩
  rw [State.restart_eq cause rfl rfl rfl hlines]
  exact ⟨rfl, rfl, rfl, rfl, rfl, rfl, rfl, rfl⟩

/-! ## The obligations of the resets -/

/-- Settles O2: every value of `State.reset` is read off. -/
theorem resetHoldsThePowerOnValues : Obligations.ResetHoldsThePowerOnValues := by
  refine ⟨rfl, rfl, rfl, rfl, by decide, rfl, ⟨⟨rfl, rfl, rfl, rfl, rfl, rfl, rfl, rfl, rfl, rfl, rfl, rfl, rfl, rfl, ?_⟩,
    rfl, rfl, ?_, rfl⟩, rfl⟩
  · intro l
    cases l <;> rfl
  · intro l
    cases l <;> rfl

/-- Settles O3: the tables are empty, so no invariant asks anything of an entry, and the part is STOPPED. -/
theorem resetMeetsTheInvariants : Obligations.ResetMeetsTheInvariants := by
  have units : UnitsLegal State.reset := .of_cleared rfl rfl rfl rfl rfl (fun l => by cases l <;> rfl)
  have lines : LinesFit State.reset := .of_cleared rfl (fun l => by cases l <;> exact ⟨_, rfl⟩)
  obtain ⟨hstopped, hwarnings, hinsts⟩ := units
  obtain ⟨hdistinct, hlines, hqueues, hcounts⟩ := (linesFit_iff _).2 lines
  refine ⟨⟨by decide, by decide, by decide, by decide, by decide⟩, ⟨by decide, by decide⟩,
    ⟨by decide, by decide, fun c hc => ?_⟩, hwarnings, hinsts, hstopped, hlines, hqueues, hcounts, hdistinct,
    ⟨rfl, fun set hset => ?_⟩, ⟨by decide, by decide⟩, fun h => ?_, fun h => ?_, fun h => ?_⟩
  · cases hc
  · cases hset
  · cases h
  · cases h
  · cases h

/-- Settles O18: RESET's effect is the mark alone; the frame that ends under that mark is its reply, and the part begins again
from its cleared runtime state. -/
theorem resetIsAnsweredThenTakesEffect : Obligations.ResetIsAnsweredThenTakesEffect := by
  refine ⟨fun s tag hr => ?_, fun s x hnrst htx hpending hkind hbody => ?_⟩
  · exact State.arrive_answers (u := s) (rs := []) (b := true)
      (act := fun t => ({ t with link := { t.link with resetPending := true } }, ⟨0x83, tag, [0x00]⟩))
      rfl hr (Nat.zero_le _) rfl rfl hr.1 rfl
  · have hreply : isResetReply x.frame = true := by
      simp [isResetReply, hkind, hbody, RequestKind.code, Result.code]
    refine ⟨s.hostReset, ?_, State.restart_cleared .hostRequest (by rw [← hnrst]; rfl)⟩
    simp [exec, execFrameSent, State.endFrame, htx, hpending, hreply]

/-- Settles O19: the map, the programs and the history are cleared besides, and the part begins again. -/
theorem supplyResetsClearEverything : Obligations.SupplyResetsClearEverything := by
  intro s hnrst i cause hi
  have hexec : exec i s = .next (s.clearAll.restart cause) := by
    rcases hi with ⟨rfl, rfl⟩ | ⟨rfl, rfl⟩ <;> rfl
  have hlines : ∀ l, ∃ supply, s.clearAll.lines.get l = Line.rest supply := fun l => ⟨_, s.clearRuntime_lines l⟩
  refine ⟨_, hexec, Restarted.of_clear cause s.clearRuntime_cleared rfl hnrst
    hlines rfl, ?_⟩
  rw [State.restart_eq (s := s.clearAll) cause rfl hnrst rfl hlines]
  exact ⟨rfl, rfl, rfl, rfl, rfl, rfl, rfl, rfl⟩

/-- Settles O20: NRST low holds the cleared runtime state, an arriving frame or character is not received, and its release
begins again from that state. -/
theorem nrstHoldsThePartInReset : Obligations.NrstHoldsThePartInReset := by
  intro s
  refine ⟨⟨_, rfl, rfl, s.clearRuntime_cleared, ⟨rfl, rfl, rfl, rfl, rfl, rfl, rfl, rfl⟩, rfl, rfl,
    s.clearRuntime_lines⟩, fun hlow => ⟨?_, ?_, ?_⟩⟩
  · refine ⟨_, ?_, State.restart_cleared .resetPin rfl⟩
    simp [exec, execNrstRelease, hlow]
  · intro k tag body
    have held : ∀ act, s.arrive body act = s := fun act => by simp [State.arrive, hlow]
    have hexec : exec (requestInstr k tag body) s = .next (s.take k tag body (requestEffect k)) := by cases k <;> rfl
    rw [hexec, State.take, held]
  · intro c
    simp [exec, execHostCharacterReceived, State.receive, hlow]

end Sys2Proof.Machine
end

section
/-! Operating states and time: the requests that are refused or end the run, the operator cap, the plan period and the
clock (R1, R6 to R10, R13, R31, R32, R61, R65, R66, R71, R129). -/

namespace Sys2Proof.Machine

open Sys2Proof

/-! ## A request by its effect -/

theorem exec_requestInstr (k : RequestKind) (tag : Byte) (body : Bytes) (s : State) :
    exec (requestInstr k tag body) s = .next (s.take k tag body (requestEffect k)) := by cases k <;> rfl

/-- The state a request's effect sees: the receiver hunts, and nothing else has moved. -/
def State.heard (s : State) : State := { s with link := { s.link with rx := .hunt } }

theorem State.heard_not_running {s : State} (h : s.operating = .stopped) : ¬ s.heard.operating = .running := by
  simp [State.heard, h]

/-- A request whose effect leaves the state and answers items a frame holds. -/
theorem OnlyAnswers.of_effect {s : State} {k : RequestKind} {tag : Byte} {body items : Bytes} (hr : s.receptive)
    (hb : body.length ≤ 240) (hl : neededLength k body = some body.length) (hi : items.length ≤ 240)
    (he : requestEffect k body s.heard = (s.heard, items)) :
    OnlyAnswers (requestInstr k tag body) s (k.code + 0x80) tag items :=
  carriedBody_of_fits hi ▸ Acts.of_take (t := s.heard) (rs := []) (exec_requestInstr k tag body s) hr hb hl he rfl hr.1 rfl

/-- A request whose effect leaves the link port but for reports, and answers items a frame holds. -/
theorem Acts.of_effect {s t u : State} {k : RequestKind} {tag : Byte} {body items : Bytes} {rs : List Report}
    (hr : s.receptive) (hb : body.length ≤ 240) (hl : neededLength k body = some body.length) (hi : items.length ≤ 240)
    (he : requestEffect k body s.heard = (t, items)) (ht : t.link = rs.foldl Link.place s.heard.link)
    (hn : t.nrstLow = false) (hu : { t with link := u.link } = u) :
    Acts (requestInstr k tag body) s (k.code + 0x80) tag items u rs :=
  carriedBody_of_fits hi ▸ Acts.of_take (exec_requestInstr k tag body s) hr hb hl he ht hn hu

/-! ## WRONG_STATE (R1, R7) -/

/-- The requests that change or start the map ask for STOPPED before anything else. -/
theorem requestEffect_running {k : RequestKind} {s : State} (h : s.operating = .running)
    (hk : k ∈ [RequestKind.mapParams, .mapGantry, .mapSpeeds, .mapBands, .start]) (b : Bytes) :
    requestEffect k b s = refuse .wrongState s := by
  simp only [List.mem_cons, List.not_mem_nil, or_false] at hk
  rcases hk with rfl | rfl | rfl | rfl | rfl
  · simp [requestEffect, mapParamsEffect, h]
  · simp [requestEffect, mapGantryEffect, h]
  · simp [requestEffect, mapSpeedsEffect, h]
  · simp [requestEffect, mapBandsEffect, h]
  · simp [requestEffect, startEffect, h]

/-- Settles O26: each of the five asks for STOPPED first. -/
theorem mapIsFrozenWhileRunning : Obligations.MapIsFrozenWhileRunning := by
  intro s k tag body hr hrun hk hb hl
  exact OnlyAnswers.of_effect hr hb hl (by decide) (requestEffect_running (s := s.heard) hrun hk body)

/-! ## STOP (R13, R61) -/

/-- Settles O29, by the three cases of STOP's effect. -/
theorem stopEndsTheRun : Obligations.StopEndsTheRun := by
  refine fun s tag hr => ⟨fun hs => ?_, fun hrun hc => ?_, fun hrun hc _ => ?_⟩
  · refine OnlyAnswers.of_effect (k := .stop) hr (Nat.zero_le _) rfl (by decide) ?_
    exact if_pos hs
  · refine OnlyAnswers.of_effect (k := .stop) (items := [0x0B]) hr (Nat.zero_le _) rfl (by decide) ?_
    simp [requestEffect, stopEffect, State.heard, hrun, hc, refuse, Result.code]
  · refine Acts.of_effect (k := .stop) (t := s.heard.stopBlocks) hr (Nat.zero_le _) rfl (by decide) ?_ rfl hr.1 rfl
    simp [requestEffect, stopEffect, State.heard, hrun, hc, accept, Result.code]

/-! ## Time (R8, R129) -/

/-- A panel has neither a pending entry nor a transaction in flight (R129). -/
theorem unaddressed_iff (line : Line) (address : Nat) :
    unaddressed line address = true ↔ (∀ e ∈ line.queue, e.address ≠ address)
      ∧ ∀ t, line.inFlight = some t → t.address ≠ address := by
  unfold unaddressed hasEntry
  cases line.inFlight <;> simp

theorem refreshDueNow_iff (now : Clock) (period : Nat) (r : PanelRec) :
    refreshDueNow now period r = true ↔ period ≤ (now - r.lastTime).toNat := decide_eq_true_iff

/-- Settles O54: the refreshes due are the entries `State.refresh` appends. -/
theorem timeAdvancesAndRefreshesQueue : Obligations.TimeAdvancesAndRefreshesQueue := by
  refine fun s => ⟨fun hs => ⟨?_, fun l => ?_⟩, fun hr => ⟨?_, fun l => ?_⟩⟩
  · simp [exec, execCorridorClockAdvance, hs]
  · simp [exec, execRefreshDue, hs]
  · simp [exec, execCorridorClockAdvance, hr]
  · refine ⟨refreshEntries s.panels l (s.lines.get l) (refreshDueNow s.clock s.params.refreshPeriod), ?_, ?_, ?_⟩
    · simp only [exec, execRefreshDue, if_pos hr]
      rfl
    · intro e he
      obtain ⟨r, -, rfl⟩ := List.mem_map.1 he
      rfl
    · unfold refreshEntries
      rw [List.map_map]
      congr 1
      refine List.filter_congr fun r _ => ?_
      rw [Bool.eq_iff_iff]
      simp only [Bool.and_eq_true, beq_iff_eq, unaddressed_iff, refreshDueNow_iff, decide_eq_true_eq, and_assoc]

/-! ## Demands (R71) -/

/-- The demand is at most each of its sources. -/
theorem lowest_le {sources : List (Binding × Nat)} {x : Binding × Nat} (h : x ∈ sources) : lowest sources ≤ x.2 := by
  induction sources with
  | nil => cases h
  | cons a sources ih =>
    cases sources with
    | nil =>
      obtain rfl := List.mem_singleton.1 h
      exact Nat.le_refl _
    | cons b rest =>
      rcases List.mem_cons.1 h with rfl | h
      · exact Nat.min_le_left _ _
      · exact Nat.le_trans (Nat.min_le_right _ _) (ih h)

/-- The record a run leaves at a gantry of the corridor. -/
theorem State.planRun_at (s : State) (timed : Bool) (initial : Option Nat) {g : Nat} (hg : g < s.params.gantryCount) :
    (s.planRun timed initial)[g]? = some (finishRec s.displayable (s.planAt g) (s.demandSources initial g)
      ((s.targets initial).getD g 0) ((s.candidates timed (s.targets initial)).getD g (0, 0)).2
      ((s.shownLimits (s.candidates timed (s.targets initial))).getD g 0)) := by
  simp [State.planRun, hg]

theorem State.planAt_eq {s : State} {g : Nat} {r : PlanRec} (h : s.plan[g]? = some r) : s.planAt g = r := by
  rw [State.planAt, List.getD_eq_getElem?_getD, h]
  rfl

/-! ## OPERATOR_CAP (R6, R66) -/

/-- A value other than the one held is a change of sources. -/
theorem operatorCapEffect_new {s : State} {v : Byte} (h : v.toNat ≠ s.operatorCap) :
    operatorCapEffect [v] s = accept [] (State.afterSources { s with operatorCap := v.toNat } true) := if_neg h

/-- Settles O43: a value other than the one held is stored, and in RUNNING the change of sources is the one event run. -/
theorem operatorCapIsStoredAndBinds : Obligations.OperatorCapIsStoredAndBinds := by
  intro s tag v hr
  have hlength : ([v] : Bytes).length ≤ 240 := by simp
  refine ⟨fun heq => ?_, fun hne hs => ?_, fun hne hrun => ?_⟩
  · refine OnlyAnswers.of_effect (k := .operatorCap) hr hlength rfl (by decide) ?_
    exact if_pos heq
  · refine Acts.of_effect (k := .operatorCap) (t := { s.heard with operatorCap := v.toNat }) (rs := []) hr hlength rfl
      (by decide) ?_ rfl hr.1 rfl
    refine (operatorCapEffect_new (s := s.heard) hne).trans ?_
    rw [State.afterSources_stopped (s := { s.heard with operatorCap := v.toNat }) hs]
    rfl
  · obtain ⟨ends, hlink, htaken⟩ := State.afterSources_taken { s.heard with operatorCap := v.toNat } true hrun
    have hframe := State.afterSources_frame { s.heard with operatorCap := v.toNat } true
    have hnrst := State.afterSources_nrstLow { s.heard with operatorCap := v.toNat } true
    have heffect : requestEffect .operatorCap [v] s.heard
        = accept [] (State.afterSources { s.heard with operatorCap := v.toNat } true) := operatorCapEffect_new hne
    generalize State.afterSources { s.heard with operatorCap := v.toNat } true = t at *
    have hplan : t.plan = State.planRun { s with operatorCap := v.toNat } false none := htaken.1 rfl
    refine ⟨{ t with link := s.link }, ends, Acts.of_effect (k := .operatorCap) hr hlength rfl (by decide) heffect
      hlink (hnrst.trans hr.1) rfl, ?_, hplan, ?_, fun hv g hg => ?_, ?_⟩
    · exact congrArg State.operatorCap hframe
    · obtain ⟨hrun', -, haspects, hhanded, hendings⟩ := htaken
      exact ⟨fun _ => hplan, fun h => absurd trivial h, haspects, hhanded, hendings⟩
    · have hat := State.planRun_at { s with operatorCap := v.toNat } false none hg
      rw [← hplan] at hat
      rw [State.planAt_eq (s := { t with link := s.link }) hat]
      refine lowest_le (x := (.operator, v.toNat)) ?_
      have hv : v.toNat ≠ 0 := fun h => hv (BitVec.eq_of_toNat_eq h)
      simp [State.demandSources, hv]
    · exact congrArg (fun x : State => { x with operatorCap := s.operatorCap, link := s.link }) hframe

/-! ## The plan period (R9, R31, R32, R65) -/

/-- Ageing keeps the band and the last sequence, and away from the stale limit everything but the age. -/
theorem ageRec_spec (limit : Nat) (r : TrafficRec) :
    (ageRec limit r).age = min (r.age + 1) 255 ∧ (ageRec limit r).band = r.band ∧ (ageRec limit r).lastSeq = r.lastSeq
      ∧ ((ageRec limit r).age ≠ limit → ageRec limit r = { r with age := (ageRec limit r).age })
      ∧ ((ageRec limit r).age = limit → (ageRec limit r).absent = true ∧ (ageRec limit r).aggSpeed = none
          ∧ (ageRec limit r).aggOcc = none ∧ (ageRec limit r).aggStatus = none ∧ (ageRec limit r).aggCount = none
          ∧ (ageRec limit r).lanes.length = r.lanes.length
          ∧ ∀ x ∈ (ageRec limit r).lanes, x = ⟨false, none, none, none, none⟩) := by
  unfold ageRec
  dsimp only
  by_cases h : min (r.age + 1) 255 = limit
  · rw [if_pos h]
    refine ⟨rfl, rfl, rfl, fun hne => absurd h hne, fun _ => ⟨rfl, rfl, rfl, rfl, rfl, List.length_map .., ?_⟩⟩
    intro x hx
    obtain ⟨y, -, rfl⟩ := List.mem_map.1 hx
    rfl
  · rw [if_neg h]
    exact ⟨rfl, rfl, rfl, fun _ => rfl, fun heq => absurd heq h⟩

/-- The traffic and the timer as a plan-period expiry leaves them (R9, R31). -/
def State.aged (s : State) : State :=
  { s with planTimer := s.planTimer - s.params.planPeriod, traffic := s.traffic.map (ageRec s.params.staleLimit) }

theorem State.aged_band (s : State) (g : Nat) : (s.aged.trafficAt g).band = (s.trafficAt g).band := by
  simp only [State.trafficAt, State.aged, List.getD_eq_getElem?_getD, List.getElem?_map]
  cases s.traffic[g]? with
  | none => rfl
  | some r => exact (ageRec_spec _ r).2.1

/-- A run reads of the traffic the bands alone, which ageing keeps. -/
theorem State.aged_planRun (s : State) (timed : Bool) (initial : Option Nat) :
    s.aged.planRun timed initial = s.planRun timed initial := by
  have hsources : s.aged.demandSources = s.demandSources := by
    funext i g
    unfold State.demandSources
    rw [State.aged_band]
    rfl
  unfold State.planRun State.targets
  rw [hsources]
  rfl

/-- Settles O44: the expiry ages the traffic and makes the timed run, and the aspects, the lines and the releases follow. -/
theorem planPeriodAgesAndRuns : Obligations.PlanPeriodAgesAndRuns := by
  refine fun s => ⟨fun hidle => ?_, fun hr htimer => ?_⟩
  · have : ¬ (s.operating = .running ∧ s.params.planPeriod ≤ s.planTimer) := by
      rintro ⟨hr, htimer⟩
      rcases hidle with hs | hlt
      · rw [hr] at hs
        cases hs
      · omega
    simp only [exec, execPlanPeriodExpiry, if_neg this]
  · let v := State.resolve (s.aged.runPlan true none)
    have hends : (v.closures.filter (released v)).map (endedReport v.clock)
        = (s.closures.filter (released v)).map (fun c => .closureState s.clock .state .releasing none c) := by
      refine List.map_congr_left fun c hc => ?_
      rw [endedReport, ((released_iff v c).1 (List.mem_filter.1 hc).2).1]
      rfl
    have hstate : ∀ c ∈ s.closures.filter (released v), c ∈ s.closures ∧ c.state = .releasing := fun c hc =>
      ⟨(List.mem_filter.1 hc).1, ((released_iff v c).1 (List.mem_filter.1 hc).2).1⟩
    refine ⟨v.endReleased, (s.closures.filter (released v)).map (fun c => .closureState s.clock .state .releasing none c),
      ?_, rfl, s.aged_planRun true none, List.length_map .., fun g r hg => ?_, rfl, ?_,
      ⟨released v, released_iff v, rfl, rfl⟩, fun c hc => (List.mem_filter.1 hc).1, fun c hc hgone => ?_, fun r hrep => ?_,
      rfl⟩
    · rw [← hends]
      simp only [Happens, exec, execPlanPeriodExpiry, if_pos (And.intro hr htimer)]
      rfl
    · have hage : v.endReleased.traffic[g]? = some (ageRec s.params.staleLimit r) := by
        change (s.traffic.map (ageRec s.params.staleLimit))[g]? = _
        rw [List.getElem?_map, hg]
        rfl
      exact ⟨_, hage, ageRec_spec _ r⟩
    · exact State.resolve_handedOn (s.aged.runPlan true none)
    · have hrel : c ∈ s.closures.filter (released v) := by
        refine List.mem_filter.2 ⟨hc, Decidable.byContradiction fun h => hgone (List.mem_filter.2 ⟨hc, ?_⟩)⟩
        rw [eq_false_of_ne_true h]
        rfl
      refine ⟨(hstate c hrel).2, List.mem_map.2 ⟨c, hrel, ?_⟩⟩
      rw [(hstate c hrel).2]
    · obtain ⟨c, hc, rfl⟩ := List.mem_map.1 hrep
      exact ⟨c, (hstate c hc).1, by rw [(hstate c hc).2]⟩

end Sys2Proof.Machine
end

section
/-! The map requests (R1 to R5, R175, R176): what the fields of a body spell, and which of them is the first out of range. -/

namespace Sys2Proof.Machine

open Sys2Proof

/-! ## The first field out of range (R1, R176) -/

theorem firstBad_eq_none {fields : List FieldCheck} : firstBad fields = none ↔ ∀ f ∈ fields, f.2 = true := by
  simp [firstBad, List.find?_eq_none]

theorem firstBad_append (xs ys : List FieldCheck) : firstBad (xs ++ ys) = (firstBad xs).or (firstBad ys) := by
  unfold firstBad
  rw [List.find?_append]
  cases xs.find? (fun f => !f.2) <;> simp

theorem firstBad_cons (x : FieldCheck) (ys : List FieldCheck) : firstBad (x :: ys) = (firstBad [x]).or (firstBad ys) :=
  firstBad_append [x] ys

theorem firstBad_flatMap_congr {α : Type} {xs : List α} {f g : α → List FieldCheck}
    (h : ∀ x ∈ xs, firstBad (f x) = firstBad (g x)) : firstBad (xs.flatMap f) = firstBad (xs.flatMap g) := by
  induction xs with
  | nil => rfl
  | cons x xs ih =>
    rw [List.flatMap_cons, List.flatMap_cons, firstBad_append, firstBad_append, h x (by simp),
      ih fun y hy => h y (by simp [hy])]

/-- Checks numbered from n on: the first that fails. -/
theorem firstBad_numbered (oks : List Bool) (n : Nat) :
    firstBad ((oks.zipIdx n).map Prod.swap) = (oks.findIdx? (fun ok => !ok)).map (· + n) := by
  induction oks generalizing n with
  | nil => rfl
  | cons ok oks ih =>
    rw [List.zipIdx_cons, List.map_cons, firstBad_cons, ih, List.findIdx?_cons]
    cases ok
    · simp [firstBad]
    · cases oks.findIdx? (fun ok => !ok) <;> simp [firstBad]
      omega

/-- A request of which the first field out of range names the answer. -/
theorem RefusesFirst.of_effect {s : State} {k : RequestKind} {tag : Byte} {body : Bytes} {fields : List FieldCheck}
    (hr : s.receptive) (hb : body.length ≤ 240) (hl : neededLength k body = some body.length)
    (he : ∀ n, firstBad fields = some n → requestEffect k body s.heard = badValue n s.heard) :
    RefusesFirst (requestInstr k tag body) s (k.code + 0x80) tag fields :=
  fun n hn => OnlyAnswers.of_effect hr hb hl (by simp) (he n hn)

/-! ## Reading a body -/

theorem u8At_drop (b : Bytes) (o i : Nat) : u8At (b.drop o) i = u8At b (o + i) := by
  simp [u8At, List.getD_eq_getElem?_getD]

theorem byteOf_toNat {n : Nat} (h : n ≤ 255) : (byteOf n).toNat = n := by
  rw [BitVec.toNat_ofNat]
  exact Nat.mod_eq_of_lt (by omega)

theorem twoBytes_toNat {n : Nat} (h : n ≤ 65535) : (byteOf (n / 256)).toNat * 256 + (byteOf n).toNat = n := by
  rw [byteOf_toNat (by omega), BitVec.toNat_ofNat]
  omega

/-- Behind k entries of one width the others stand. -/
theorem drop_flatMap {α : Type} {f : α → Bytes} {w : Nat} (hf : ∀ a, (f a).length = w) (xs : List α) (rest : Bytes) {k : Nat}
    (hk : k ≤ xs.length) : (xs.flatMap f ++ rest).drop (w * k) = (xs.drop k).flatMap f ++ rest := by
  induction k generalizing xs with
  | zero => simp
  | succ k ih =>
    cases xs with
    | nil => simp at hk
    | cons x xs =>
      rw [List.drop_succ_cons, ← ih xs (by simpa using hk), List.flatMap_cons, List.append_assoc, List.drop_append,
        hf, List.drop_eq_nil_of_le (by rw [hf, Nat.mul_succ]; omega), List.nil_append]
      congr 1
      rw [Nat.mul_succ]
      omega

/-- The entry at place k stands behind k others. -/
theorem drop_flatMap_at {α : Type} {f : α → Bytes} {w : Nat} (hf : ∀ a, (f a).length = w) (xs : List α) (rest : Bytes)
    {k : Nat} (hk : k < xs.length) : ∃ more, (xs.flatMap f ++ rest).drop (w * k) = f xs[k] ++ more := by
  rw [drop_flatMap hf xs rest (Nat.le_of_lt hk), List.drop_eq_getElem_cons hk, List.flatMap_cons, List.append_assoc]
  exact ⟨_, rfl⟩

theorem flatMap_width {α : Type} {f : α → Bytes} {w : Nat} (hf : ∀ a, (f a).length = w) (xs : List α) :
    (xs.flatMap f).length = w * xs.length := by
  induction xs with
  | nil => rfl
  | cons x xs ih => rw [List.flatMap_cons, List.length_append, hf, ih, List.length_cons, Nat.mul_succ, Nat.add_comm]

/-- Entries read one after the other are the list. -/
theorem map_lanesTo {α : Type} {xs : List α} {f : Nat → α} (h : ∀ k (hk : k < xs.length), f (k + 1) = xs[k]) :
    (lanesTo xs.length).map f = xs :=
  List.ext_getElem (by simp [lanesTo]) fun k _ hk => by simpa [lanesTo] using h k hk

theorem mem_lanesTo {n l : Nat} : l ∈ lanesTo n ↔ ∃ k, k < n ∧ l = k + 1 := by
  simp [lanesTo, eq_comm]

theorem flatMap_lanesTo {α : Type} (n : Nat) (f : Nat → List α) :
    (lanesTo n).flatMap f = (List.range n).flatMap (fun k => f (k + 1)) := by
  rw [lanesTo, List.flatMap_map]

/-! ## MAP_PARAMS (R1, R2) -/

theorem resizeTable_length (old new : Params) (table : List (Option GantryRec)) :
    (resizeTable old new table).length = new.gantryCount := by
  unfold resizeTable
  split
  · exact List.length_replicate ..
  · rw [List.length_append, List.length_take, List.length_replicate]
    omega

/-- R2: the records below the new G stand where the lane count does, and none where it changes. -/
theorem resizeTable_at (old new : Params) (table : List (Option GantryRec)) {h : Nat} (hh : h < new.gantryCount) :
    (resizeTable old new table)[h]? = some (if new.laneCount = old.laneCount then (table[h]?).join else none) := by
  unfold resizeTable
  by_cases hn : new.laneCount = old.laneCount
  · rw [if_neg (by simpa using hn), if_pos hn]
    by_cases hlen : h < table.length
    · rw [List.getElem?_append_left (by rw [List.length_take]; omega), List.getElem?_take_of_lt hh,
        List.getElem?_eq_getElem hlen]
      rfl
    · rw [List.getElem?_append_right (by rw [List.length_take]; omega), List.getElem?_replicate, List.length_take,
        if_pos (by omega), List.getElem?_eq_none (by omega)]
      rfl
  · rw [if_pos hn, if_neg hn, List.getElem?_replicate, if_pos hh]

/-- Settles O23: the fifteen checks are numbered from 1 on, and the table is resized as R2 says. -/
theorem mapParamsReplacesTheParameters : Obligations.MapParamsReplacesTheParameters := by
  intro s tag g n p drop hold stale ks ko rh rl band fail rec deg fh fl eh el hr hs reach refresh establish inRange fields i
  let body : Bytes := [g, n, p, drop, hold, stale, ks, ko, rh, rl, band, fail, rec, deg, fh, fl, eh, el]
  have hlength : body.length ≤ 240 := by simp [body]
  have hchecks : firstBad (paramFields (paramsAt body)) = (fields.findIdx? (fun ok => !ok)).map (· + 1) :=
    firstBad_numbered fields 1
  refine ⟨fun k hk => ?_, fun hok => ?_⟩
  · rw [hk] at hchecks
    refine OnlyAnswers.of_effect (k := .mapParams) (body := body) hr hlength rfl (by simp) ?_
    simp only [requestEffect, mapParamsEffect, hchecks, State.heard, hs]
    rfl
  · rw [hok] at hchecks
    refine ⟨resizeTable s.params (paramsAt body) s.gantries, resizeTable_length _ _ _, fun h hh => resizeTable_at _ _ _ hh,
      Acts.of_effect (k := .mapParams) (body := body) (rs := [])
        (t := { s.heard with gantries := resizeTable s.params (paramsAt body) s.gantries, params := paramsAt body })
        hr hlength rfl (by simp) ?_ rfl hr.1 rfl⟩
    simp only [requestEffect, mapParamsEffect, hchecks, State.heard, hs]
    rfl

/-! ## MAP_GANTRY (R3) -/

theorem lineOf_isSome : ∀ v : Nat, (lineOf v).isSome = decide (v ≤ 3)
  | 0 | 1 | 2 | 3 => rfl
  | v + 4 => by simp [lineOf]

theorem addrBytes_length (a : PanelAddr) : (addrBytes a).length = 2 := rfl

/-- A line and address read where they stand (10.3). -/
theorem panelAddr_of_drop {b rest : Bytes} {o : Nat} {a : PanelAddr} (h : b.drop o = addrBytes a ++ rest)
    (ha : a.address ≤ 126) :
    panelAddrAt b o = a ∧ (lineOf (u8At b o)).isSome = true ∧ u8At b (o + 1) = a.address := by
  have h0 : u8At b o = u8At (addrBytes a ++ rest) 0 := by rw [← h, u8At_drop]; rfl
  have h1 : u8At b (o + 1) = a.address := by
    rw [← u8At_drop, h]
    exact byteOf_toNat (by omega)
  obtain ⟨line, address⟩ := a
  unfold panelAddrAt
  rw [h0, h1]
  cases line <;> exact ⟨rfl, rfl, rfl⟩

/-- What follows the lane entries of a MAP_GANTRY body (10.3). -/
def messageTail (r : GantryRec) (x y : Byte) : Bytes := r.message.elim [0, x, y] (fun a => 1 :: addrBytes a)

theorem gantryBody_eq (g x y : Byte) (r : GantryRec) :
    gantryBody g r x y = [g, byteOf (r.chainage / 256), byteOf r.chainage, byteOf r.lanes.length]
      ++ (r.lanes.flatMap addrBytes ++ messageTail r x y) := by
  unfold gantryBody messageTail
  cases r.message <;> simp [twoBytes]

theorem gantryBody_length (g x y : Byte) (r : GantryRec) : (gantryBody g r x y).length = 7 + 2 * r.lanes.length := by
  have htail : (messageTail r x y).length = 3 := by
    unfold messageTail
    cases r.message <;> rfl
  rw [gantryBody_eq, List.length_append, List.length_append, flatMap_width addrBytes_length, htail]
  simp only [List.length_cons, List.length_nil]
  omega

/-- The lane entries stand at 4, 6, and so on. -/
theorem gantryBody_lane (g x y : Byte) (r : GantryRec) {k : Nat} (hk : k < r.lanes.length) :
    ∃ rest, (gantryBody g r x y).drop (2 * k + 4) = addrBytes r.lanes[k] ++ rest := by
  rw [gantryBody_eq, Nat.add_comm, ← List.drop_drop]
  exact drop_flatMap_at addrBytes_length r.lanes _ hk

/-- The message panel's flag stands behind them. -/
theorem gantryBody_message (g x y : Byte) (r : GantryRec) :
    (gantryBody g r x y).drop (messageOffset r.lanes.length) = messageTail r x y := by
  rw [gantryBody_eq, messageOffset, ← List.drop_drop]
  refine (drop_flatMap addrBytes_length r.lanes _ (Nat.le_refl _)).trans ?_
  rw [List.drop_eq_nil_of_le (Nat.le_refl _)]
  rfl

theorem u8At_message (g x y : Byte) (r : GantryRec) (i : Nat) :
    u8At (gantryBody g r x y) (messageOffset r.lanes.length + i) = u8At (messageTail r x y) i := by
  rw [← u8At_drop, gantryBody_message]

/-- The body of a record in range passes every check (R3). -/
theorem mapGantryFields_gantryBody {s : State} {g x y : Byte} {r : GantryRec} (hg : g.toNat < s.params.gantryCount)
    (hn : r.lanes.length = s.params.laneCount) (h2 : 2 ≤ r.lanes.length) (h5 : r.lanes.length ≤ 5)
    (ha : ∀ a ∈ r.lanes, 1 ≤ a.address ∧ a.address ≤ 126)
    (hm : ∀ a, r.message = some a → 1 ≤ a.address ∧ a.address ≤ 126) :
    firstBad (mapGantryFields s (gantryBody g r x y)) = none := by
  have index : u8At (gantryBody g r x y) 0 = g.toNat := by rw [gantryBody_eq]; rfl
  have count : u8At (gantryBody g r x y) 3 = r.lanes.length := by
    rw [gantryBody_eq]
    exact byteOf_toNat (by omega)
  have lane : ∀ k, k < r.lanes.length → (lineOf (u8At (gantryBody g r x y) (2 * (k + 1) + 2))).isSome = true
      ∧ within 1 126 (u8At (gantryBody g r x y) (2 * (k + 1) + 3)) = true := by
    intro k hk
    obtain ⟨rest, hrest⟩ := gantryBody_lane g x y r hk
    have hin := ha _ (List.getElem_mem hk)
    obtain ⟨-, hline, haddress⟩ := panelAddr_of_drop hrest hin.2
    exact ⟨hline, decide_eq_true (haddress ▸ hin)⟩
  have message : (∀ f ∈ [(14, within 0 1 (u8At (messageTail r x y) 0)),
      (15, u8At (messageTail r x y) 0 != 1 || (lineOf (u8At (messageTail r x y) 1)).isSome),
      (16, u8At (messageTail r x y) 0 != 1 || within 1 126 (u8At (messageTail r x y) 2))], f.2 = true) := by
    unfold messageTail
    cases hmsg : r.message with
    | none => simp [u8At, within]
    | some a =>
      obtain ⟨hlow, hhigh⟩ := hm a hmsg
      obtain ⟨-, hline, haddress⟩ := panelAddr_of_drop (b := 1 :: addrBytes a) (o := 1) (rest := []) (by simp) hhigh
      have hflag : u8At (1 :: addrBytes a) 0 = 1 := rfl
      simp only [Option.elim_some, hflag, hline, haddress, within]
      simp [hlow, hhigh]
  rw [firstBad_eq_none]
  intro f hf
  have flag := u8At_message g x y r 0
  rw [Nat.add_zero] at flag
  simp only [mapGantryFields, index, count, flag, u8At_message g x y r 1, u8At_message g x y r 2] at hf
  rcases List.mem_append.1 hf with hf | hf
  · rcases List.mem_append.1 hf with hf | hf
    · simp only [List.mem_cons, List.not_mem_nil, or_false] at hf
      rcases hf with rfl | rfl | rfl
      · exact decide_eq_true hg
      · rfl
      · simp only [← hn, Bool.and_eq_true, bne_iff_ne, beq_self_eq_true, and_true]
        omega
    · obtain ⟨l, hl, hf⟩ := List.mem_flatMap.1 hf
      obtain ⟨k, hk, rfl⟩ := mem_lanesTo.1 hl
      simp only [List.mem_cons, List.not_mem_nil, or_false] at hf
      rcases hf with rfl | rfl
      · exact (lane k hk).1
      · exact (lane k hk).2
  · exact message f hf

/-- The record of the body is the one it was written from. -/
theorem gantryAt_gantryBody {g x y : Byte} {r : GantryRec} (h5 : r.lanes.length ≤ 5) (hc : r.chainage ≤ 65535)
    (ha : ∀ a ∈ r.lanes, a.address ≤ 126) (hm : ∀ a, r.message = some a → a.address ≤ 126) :
    gantryAt (gantryBody g r x y) = r := by
  have chainage : u16At (gantryBody g r x y) 1 = r.chainage := by
    rw [gantryBody_eq]
    exact twoBytes_toNat hc
  have count : u8At (gantryBody g r x y) 3 = r.lanes.length := by
    rw [gantryBody_eq]
    exact byteOf_toNat (by omega)
  have lanes : (lanesTo r.lanes.length).map (fun l => panelAddrAt (gantryBody g r x y) (2 * l + 2)) = r.lanes :=
    map_lanesTo fun k hk => by
      obtain ⟨rest, hrest⟩ := gantryBody_lane g x y r hk
      exact (panelAddr_of_drop hrest (ha _ (List.getElem_mem hk))).1
  have flag := u8At_message g x y r 0
  have message : (if u8At (messageTail r x y) 0 = 1
      then some (panelAddrAt (gantryBody g r x y) (messageOffset r.lanes.length + 1)) else none) = r.message := by
    cases hmsg : r.message with
    | none => simp [messageTail, hmsg, u8At]
    | some a =>
      have hdrop : (gantryBody g r x y).drop (messageOffset r.lanes.length + 1) = addrBytes a ++ [] := by
        rw [← List.drop_drop, gantryBody_message, messageTail, hmsg]
        simp
      rw [(panelAddr_of_drop hdrop (hm a hmsg)).1]
      simp [messageTail, hmsg, u8At]
  rw [Nat.add_zero] at flag
  unfold gantryAt
  rw [chainage, count, lanes, flag, message]

/-- The checks of a MAP_GANTRY body as the fields stand in it: the same first one fails as in the model's list. -/
theorem mapGantryFields_firstBad (s : State) (b : Bytes) :
    firstBad (mapGantryFields s b) = firstBad
      ([(1, decide (u8At b 0 < s.params.gantryCount)),
        (3, decide (s.params.laneCount ≠ 0 ∧ u8At b 3 = s.params.laneCount))]
        ++ (List.range (u8At b 3)).flatMap (fun l =>
            [(2 * l + 4, decide (u8At b (2 * l + 4) ≤ 3)),
             (2 * l + 5, decide (1 ≤ u8At b (2 * l + 5) ∧ u8At b (2 * l + 5) ≤ 126))])
        ++ [(14, decide (u8At b (2 * u8At b 3 + 4) ≤ 1)),
            (15, decide (u8At b (2 * u8At b 3 + 4) = 0) || decide (u8At b (2 * u8At b 3 + 5) ≤ 3)),
            (16, decide (u8At b (2 * u8At b 3 + 4) = 0)
              || decide (1 ≤ u8At b (2 * u8At b 3 + 6) ∧ u8At b (2 * u8At b 3 + 6) ≤ 126))]) := by
  have count : (s.params.laneCount != 0 && u8At b 3 == s.params.laneCount)
      = decide (s.params.laneCount ≠ 0 ∧ u8At b 3 = s.params.laneCount) := by
    rw [Bool.eq_iff_iff]
    simp
  have offset : messageOffset (u8At b 3) = 2 * u8At b 3 + 4 := Nat.add_comm _ _
  have number : ∀ x z : Bool, firstBad [(1, x), (2, true), (3, z)] = firstBad [(1, x), (3, z)] := by
    intro x z
    cases x <;> rfl
  have message : ∀ flag line address : Nat,
      firstBad [(14, within 0 1 flag), (15, flag != 1 || decide (line ≤ 3)), (16, flag != 1 || within 1 126 address)]
        = firstBad [(14, decide (flag ≤ 1)), (15, decide (flag = 0) || decide (line ≤ 3)),
            (16, decide (flag = 0) || decide (1 ≤ address ∧ address ≤ 126))] := by
    intro flag line address
    rcases flag with _ | _ | flag <;> simp [firstBad, within]
  unfold mapGantryFields
  rw [firstBad_append, firstBad_append, firstBad_append, firstBad_append, flatMap_lanesTo, number]
  simp only [lineOf_isSome, offset, message, count]
  rfl

/-- Settles O24: a body in range is read back, and of the others the first failing check is the model's. -/
theorem mapGantryReplacesTheRecord : Obligations.MapGantryReplacesTheRecord := by
  refine fun s tag hr hs => ⟨fun g x y r hg hn h2 h5 hc ha hm => ?_, fun body hb hl => ?_⟩
  · have hlength := gantryBody_length g x y r
    have hneeded : neededLength .mapGantry (gantryBody g r x y) = some (gantryBody g r x y).length := by
      have : (gantryBody g r x y)[3]? = some (byteOf r.lanes.length) := by rw [gantryBody_eq]; rfl
      rw [neededLength, this, hlength, Option.map_some, byteOf_toNat (by omega)]
    have hfields := mapGantryFields_gantryBody (x := x) (y := y) hg hn h2 h5 ha hm
    have hrecord := gantryAt_gantryBody (g := g) (x := x) (y := y) h5 hc (fun a h => (ha a h).2) fun a h => (hm a h).2
    have hindex : u8At (gantryBody g r x y) 0 = g.toNat := by rw [gantryBody_eq]; rfl
    refine Acts.of_effect (k := .mapGantry) (rs := [])
      (t := { s.heard with gantries := s.gantries.set g.toNat (some r) }) hr (by omega) hneeded (by simp) ?_ rfl hr.1 rfl
    have hheard : firstBad (mapGantryFields s.heard (gantryBody g r x y)) = none := hfields
    simp only [requestEffect, mapGantryEffect, hheard, hrecord, hindex, if_neg (State.heard_not_running hs)]
    rfl
  · refine RefusesFirst.of_effect (k := .mapGantry) hr hb hl fun n hn => ?_
    have hfields : firstBad (mapGantryFields s.heard body) = some n := (mapGantryFields_firstBad s body).trans hn
    simp only [requestEffect, mapGantryEffect, hfields, if_neg (State.heard_not_running hs)]

end Sys2Proof.Machine
end

section
/-! The displayable set and the band table as MAP_SPEEDS and MAP_BANDS replace them (R4, R5). -/

namespace Sys2Proof.Machine

open Sys2Proof

/-! ## MAP_SPEEDS (R4) -/

/-- A value's own range, and that it lies above the value before it (R4). -/
def speedOk (before : Option Nat) (v : Nat) : Bool :=
  within 20 130 v && v % 10 == 0 && before.all (fun u => decide (u < v))

theorem speedFields_cons (field : Nat) (before : Option Nat) (v : Nat) (rest : List Nat) :
    speedFields field before (v :: rest) = (field, speedOk before v) :: speedFields (field + 1) (some v) rest := by
  unfold speedOk
  cases before <;> rfl

/-- The checks of a rising list by place: each value against the one before it. -/
theorem speedFields_eq (field : Nat) (before : Option Nat) (values : List Nat) :
    speedFields field before values = (List.range values.length).map (fun k =>
      (k + field, speedOk (if k = 0 then before else some (values.getD (k - 1) 0)) (values.getD k 0))) := by
  induction values generalizing field before with
  | nil => rfl
  | cons v rest ih =>
    rw [speedFields_cons, ih, List.length_cons, List.range_succ_eq_map, List.map_cons, List.map_map]
    congr 1
    · simp
    · refine List.map_congr_left fun k _ => ?_
      cases k with
      | zero => simp [Nat.add_comm]
      | succ k => simp [Nat.add_comm, Nat.add_left_comm]

/-- A rising list of values in range passes. -/
theorem speedFields_pass {field : Nat} {before : Option Nat} {values : List Nat} (hrise : values.Pairwise (· < ·))
    (hin : ∀ v ∈ values, 20 ≤ v ∧ v ≤ 130 ∧ v % 10 = 0) (hbefore : ∀ u, before = some u → ∀ v ∈ values, u < v) :
    firstBad (speedFields field before values) = none := by
  induction values generalizing field before with
  | nil => rfl
  | cons v rest ih =>
    obtain ⟨hv, hrest⟩ := List.pairwise_cons.1 hrise
    obtain ⟨hlow, hhigh, hten⟩ := hin v (by simp)
    have hok : speedOk before v = true := by
      cases before with
      | none => simp [speedOk, within, hlow, hhigh, hten]
      | some u => simp [speedOk, within, hlow, hhigh, hten, hbefore u rfl v (by simp)]
    rw [speedFields_cons, firstBad_cons, hok, ih hrest (fun w hw => hin w (by simp [hw]))]
    · rfl
    · rintro u ⟨⟩
      exact hv

theorem speedsAt_spelled (values : List Nat) (n : Byte) (h : ∀ v ∈ values, v ≤ 255) :
    speedsAt (n :: values.map byteOf) = values := by
  rw [speedsAt, List.drop_succ_cons, List.drop_zero, List.map_map]
  refine (List.map_congr_left fun v hv => ?_).trans (List.map_id values)
  exact byteOf_toNat (h v hv)

/-- The values of a body are the bytes behind its count. -/
theorem speedsAt_getD (b : Bytes) (k : Nat) : (speedsAt b).getD k 0 = u8At b (k + 1) := by
  simp only [speedsAt, u8At, List.getD_eq_getElem?_getD, List.getElem?_map, List.getElem?_drop, Nat.add_comm 1 k]
  cases b[k + 1]? <;> rfl

theorem speedChecks_eq {b : Bytes} (h : b.length = 1 + u8At b 0) :
    speedFields 2 none (speedsAt b) = (List.range (u8At b 0)).map (fun k =>
      (k + 2, decide (20 ≤ u8At b (k + 1) ∧ u8At b (k + 1) ≤ 130 ∧ u8At b (k + 1) % 10 = 0
        ∧ (k = 0 ∨ u8At b k < u8At b (k + 1))))) := by
  have hlength : (speedsAt b).length = u8At b 0 := by
    rw [speedsAt, List.length_map, List.length_drop, h]
    omega
  rw [speedFields_eq, hlength]
  refine List.map_congr_left fun k _ => ?_
  simp only [speedsAt_getD]
  congr 1
  rw [Bool.eq_iff_iff]
  cases k with
  | zero => simp [speedOk, within, and_assoc]
  | succ k => simp [speedOk, within, and_assoc]

/-! ## MAP_BANDS (R5) -/

theorem bandBytes_length (x : Band) : (bandBytes x).length = 7 := rfl

/-- A band read where it stands (10.3). -/
theorem bandAt_of_drop {b rest : Bytes} {n : Nat} {x : Band} (h : b.drop (7 * n + 1) = bandBytes x ++ rest)
    (hx : x.occOn ≤ 1000 ∧ x.occOff ≤ 1000 ∧ x.spdOn ≤ 250 ∧ x.spdOff ≤ 250 ∧ x.limit ≤ 255) : bandAt b (n + 1) = x := by
  obtain ⟨hon, hoff, hson, hsoff, hlimit⟩ := hx
  have at_ : ∀ o i, o = 7 * n + 1 + i → u8At b o = u8At (bandBytes x ++ rest) i := by
    rintro o i rfl
    rw [← h, u8At_drop]
  unfold bandAt u16At
  rw [at_ (7 * (n + 1) - 6) 0 (by omega), at_ (7 * (n + 1) - 6 + 1) 1 (by omega), at_ (7 * (n + 1) - 4) 2 (by omega),
    at_ (7 * (n + 1) - 4 + 1) 3 (by omega), at_ (7 * (n + 1) - 2) 4 (by omega), at_ (7 * (n + 1) - 1) 5 (by omega),
    at_ (7 * (n + 1)) 6 (by omega)]
  obtain ⟨occOn, occOff, spdOn, spdOff, limit⟩ := x
  simp only [Band.mk.injEq]
  exact ⟨twoBytes_toNat (by omega), twoBytes_toNat (by omega), byteOf_toNat (by omega), byteOf_toNat (by omega),
    byteOf_toNat (by omega)⟩

/-- The bands of a body are those it was written from. -/
theorem bandAt_spelled {bands : List Band} {n : Byte}
    (h : ∀ x ∈ bands, x.occOn ≤ 1000 ∧ x.occOff ≤ 1000 ∧ x.spdOn ≤ 250 ∧ x.spdOff ≤ 250 ∧ x.limit ≤ 255) {k : Nat}
    (hk : k < bands.length) : bandAt (n :: bands.flatMap bandBytes) (k + 1) = bands[k] := by
  obtain ⟨rest, hrest⟩ := drop_flatMap_at bandBytes_length bands [] hk
  rw [List.append_nil] at hrest
  exact bandAt_of_drop (by rw [List.drop_succ_cons, hrest]) (h _ (List.getElem_mem hk))

theorem bandFields_pass {b : Bytes} {n : Nat}
    (h : (bandAt b n).occOn ≤ 1000 ∧ (bandAt b n).occOff ≤ 1000 ∧ (bandAt b n).spdOn ≤ 250 ∧ (bandAt b n).spdOff ≤ 250) :
    firstBad (bandFields b n) = none := by
  obtain ⟨hon, hoff, hson, hsoff⟩ := h
  simp [firstBad, bandFields, within, hon, hoff, hson, hsoff]

/-- The checks of one band as the fields stand in the body. -/
theorem bandFields_firstBad (b : Bytes) (k : Nat) :
    firstBad (bandFields b (k + 1)) = firstBad
      [(5 * k + 2, decide (u16At b (7 * k + 1) ≤ 1000)), (5 * k + 3, decide (u16At b (7 * k + 3) ≤ 1000)),
       (5 * k + 4, decide (u8At b (7 * k + 5) ≤ 250)), (5 * k + 5, decide (u8At b (7 * k + 6) ≤ 250))] := by
  have last : ∀ (w x y z : FieldCheck) (n : Nat), firstBad [w, x, y, z, (n, true)] = firstBad [w, x, y, z] := by
    intro w x y z n
    rw [show [w, x, y, z, (n, true)] = [w, x, y, z] ++ [(n, true)] from rfl, firstBad_append]
    exact Option.or_none
  have e6 : 7 * (k + 1) - 6 = 7 * k + 1 := by omega
  have e4 : 7 * (k + 1) - 4 = 7 * k + 3 := by omega
  have e2 : 7 * (k + 1) - 2 = 7 * k + 5 := by omega
  have e1 : 7 * (k + 1) - 1 = 7 * k + 6 := by omega
  have f3 : 5 * (k + 1) - 3 = 5 * k + 2 := by omega
  have f2 : 5 * (k + 1) - 2 = 5 * k + 3 := by omega
  have f1 : 5 * (k + 1) - 1 = 5 * k + 4 := by omega
  have f0 : 5 * (k + 1) = 5 * k + 5 := by omega
  unfold bandFields bandAt
  rw [last, e6, e4, e2, e1, f3, f2, f1, f0]
  simp [within]

/-! ## The obligation -/

/-- A count byte and its entries, as R175 asks of the counted kinds. -/
theorem neededLength_counted {count : Nat} {entries : Bytes} (hc : count ≤ 255) :
    (entries.length = count → neededLength .mapSpeeds (byteOf count :: entries) = some (byteOf count :: entries).length)
    ∧ (entries.length = 7 * count →
        neededLength .mapBands (byteOf count :: entries) = some (byteOf count :: entries).length) := by
  constructor
  · intro h
    simp only [neededLength, List.getElem?_cons_zero, Option.map_some, byteOf_toNat hc, List.length_cons, h, Nat.add_comm]
  · intro h
    simp only [neededLength, List.getElem?_cons_zero, Option.map_some, byteOf_toNat hc, List.length_cons, h, Nat.add_comm]

/-- Settles O25: a legal table passes every check and is read back whole; of other bodies the first failing check is the
model's. -/
theorem mapTablesAreReplacedInFull : Obligations.MapTablesAreReplacedInFull := by
  intro s tag hr hs
  have hstopped := State.heard_not_running hs
  refine ⟨fun values h2 h8 hrise hin => ?_, fun bands h1 h6 hin => ?_, fun body hb => ⟨fun hl => ?_, fun hl => ?_⟩⟩
  · have hspelled : speedsAt (byteOf values.length :: values.map byteOf) = values :=
      speedsAt_spelled values _ fun v hv => by have := (hin v hv).2.1; omega
    have hcount : u8At (byteOf values.length :: values.map byteOf) 0 = values.length := byteOf_toNat (by omega)
    have hfields : firstBad ((1, within 2 8 values.length) :: speedFields 2 none values) = none := by
      rw [firstBad_cons, speedFields_pass hrise hin (by simp)]
      simp [firstBad, within, h2, h8]
    refine Acts.of_effect (k := .mapSpeeds) (t := { s.heard with speeds := some values }) (rs := []) hr
      (by simp only [List.length_cons, List.length_map]; omega)
      ((neededLength_counted (by omega)).1 (List.length_map ..)) (by simp) ?_ rfl hr.1 rfl
    simp only [requestEffect, mapSpeedsEffect, if_neg hstopped, hcount, hspelled, hfields]
    rfl
  · have hlength : (bands.flatMap bandBytes).length = 7 * bands.length := flatMap_width bandBytes_length bands
    have hcount : u8At (byteOf bands.length :: bands.flatMap bandBytes) 0 = bands.length := byteOf_toNat (by omega)
    have hread : ∀ k (hk : k < bands.length), bandAt (byteOf bands.length :: bands.flatMap bandBytes) (k + 1) = bands[k] :=
      fun k hk => bandAt_spelled hin hk
    have hfields : firstBad ((1, within 1 6 bands.length)
        :: (lanesTo bands.length).flatMap (bandFields (byteOf bands.length :: bands.flatMap bandBytes))) = none := by
      rw [firstBad_eq_none]
      intro f hf
      rcases List.mem_cons.1 hf with rfl | hf
      · exact decide_eq_true ⟨h1, h6⟩
      · obtain ⟨n, hn, hf⟩ := List.mem_flatMap.1 hf
        obtain ⟨k, hk, rfl⟩ := mem_lanesTo.1 hn
        obtain ⟨hon, hoff, hson, hsoff, -⟩ := hin _ (List.getElem_mem hk)
        exact firstBad_eq_none.1 (bandFields_pass (by rw [hread k hk]; exact ⟨hon, hoff, hson, hsoff⟩)) f hf
    refine Acts.of_effect (k := .mapBands) (t := { s.heard with bands := some bands }) (rs := []) hr
      (by rw [List.length_cons, hlength]; omega) ((neededLength_counted (by omega)).2 hlength) (by simp) ?_ rfl hr.1 rfl
    simp only [requestEffect, mapBandsEffect, if_neg hstopped, hcount, hfields, map_lanesTo hread]
    rfl
  · refine RefusesFirst.of_effect (k := .mapSpeeds) hr hb hl fun n hn => ?_
    have hlength : body.length = 1 + u8At body 0 := by
      cases body with
      | nil => simp [neededLength] at hl
      | cons c rest => simpa [neededLength, u8At, eq_comm] using hl
    have hfields : firstBad ((1, within 2 8 (u8At body 0)) :: speedFields 2 none (speedsAt body)) = some n := by
      rw [speedChecks_eq hlength]
      exact hn
    simp only [requestEffect, mapSpeedsEffect, if_neg hstopped, hfields]
  · refine RefusesFirst.of_effect (k := .mapBands) hr hb hl fun n hn => ?_
    have hfields : firstBad ((1, within 1 6 (u8At body 0)) :: (lanesTo (u8At body 0)).flatMap (bandFields body)) = some n := by
      rw [firstBad_cons, flatMap_lanesTo, firstBad_flatMap_congr fun k _ => bandFields_firstBad body k, ← firstBad_cons]
      exact hn
    simp only [requestEffect, mapBandsEffect, if_neg hstopped, hfields]

end Sys2Proof.Machine
end

section
/-! START's checks of the map (R10): each list of checks by place, the first fault of each stage, and the obligation that names
them. -/

namespace Sys2Proof.Machine

open Sys2Proof

/-! ## The first fault of several checks -/

theorem firstFault_cons (holds : Bool) (f : MapFault) (rest : List (Bool × MapFault)) :
    firstFault ((holds, f) :: rest) = if holds then firstFault rest else some f := rfl

theorem firstFault_append (xs ys : List (Bool × MapFault)) :
    firstFault (xs ++ ys) = (firstFault xs).or (firstFault ys) := by
  induction xs with
  | nil => rfl
  | cons x xs ih =>
    obtain ⟨holds, f⟩ := x
    rw [List.cons_append, firstFault_cons, firstFault_cons, ih]
    cases holds <;> rfl

theorem firstFault_mem {checks : List (Bool × MapFault)} {f : MapFault} (h : firstFault checks = some f) :
    ∃ c ∈ checks, c.2 = f := by
  induction checks with
  | nil => cases h
  | cons c checks ih =>
    obtain ⟨holds, g⟩ := c
    rw [firstFault_cons] at h
    split at h
    · obtain ⟨c, hc, rfl⟩ := ih h
      exact ⟨c, List.mem_cons_of_mem _ hc, rfl⟩
    · exact ⟨_, List.mem_cons_self, Option.some.inj h⟩

/-- Checks made place by place: the fault is that of the first place that has one. -/
theorem firstFault_places {n k : Nat} {f : Nat → List (Bool × MapFault)} {r : MapFault} (hk : k < n)
    (hbefore : ∀ j, j < k → firstFault (f j) = none) (h : firstFault (f k) = some r) :
    firstFault ((List.range n).flatMap f) = some r := by
  induction n generalizing k f with
  | zero => cases hk
  | succ n ih =>
    rw [List.range_succ_eq_map, List.flatMap_cons, List.flatMap_map, firstFault_append]
    cases k with
    | zero => rw [h]; rfl
    | succ k =>
      rw [hbefore 0 (Nat.succ_pos k), Option.none_or]
      exact ih (Nat.lt_of_succ_lt_succ hk) (fun j hj => hbefore (j + 1) (Nat.succ_lt_succ hj)) h

theorem firstFault_places_none {n : Nat} {f : Nat → List (Bool × MapFault)} :
    firstFault ((List.range n).flatMap f) = none ↔ ∀ k, k < n → firstFault (f k) = none := by
  simp only [firstFault_eq_none, List.mem_flatMap, List.mem_range]
  exact ⟨fun h k hk c hc => h c ⟨k, hk, hc⟩, fun h c ⟨k, hk, hc⟩ => h k hk c hc⟩

/-! ## Items 4 and 5 by place -/

/-- The checks of the chainages at places k and k+1. -/
def chainageCheck (chainages : List Nat) (g k : Nat) : List (Bool × MapFault) :=
  [(decide (chainages.getD k 0 < chainages.getD (k + 1) 0), (4, g + k)),
   (decide (chainages.getD k 0 + 100 ≤ chainages.getD (k + 1) 0), (5, g + k))]

theorem chainageChecks_eq (g : Nat) (recs : List GantryRec) :
    chainageChecks g recs
      = (List.range (recs.length - 1)).flatMap (chainageCheck (recs.map (·.chainage)) g) := by
  induction recs generalizing g with
  | nil => rfl
  | cons x recs ih =>
    cases recs with
    | nil => rfl
    | cons y rest =>
      have hrange : (x :: y :: rest).length - 1 = ((y :: rest).length - 1) + 1 := by simp
      rw [chainageChecks, ih, hrange, List.range_succ_eq_map, List.flatMap_cons, List.flatMap_map]
      refine congrArg (chainageCheck ((x :: y :: rest).map (·.chainage)) g 0 ++ ·) ?_
      refine congrFun (congrArg List.flatMap (funext fun k => ?_)) _
      simp only [chainageCheck, List.map_cons, List.getD_cons_succ, Nat.add_assoc, Nat.add_comm 1]

/-! ## Item 10 by place -/

/-- The check of the gap between the values at places k and k+1. -/
def gapCheck (maxDrop : Nat) (set : List Nat) (position k : Nat) : List (Bool × MapFault) :=
  [(decide (set.getD (k + 1) 0 - set.getD k 0 ≤ maxDrop), (10, position + k))]

theorem gapChecks_eq (maxDrop position : Nat) (set : List Nat) :
    gapChecks maxDrop position set = (List.range (set.length - 1)).flatMap (gapCheck maxDrop set position) := by
  induction set generalizing position with
  | nil => rfl
  | cons x set ih =>
    cases set with
    | nil => rfl
    | cons y rest =>
      have hrange : (x :: y :: rest).length - 1 = ((y :: rest).length - 1) + 1 := by simp
      rw [gapChecks, ih, hrange, List.range_succ_eq_map, List.flatMap_cons, List.flatMap_map]
      refine congrArg (gapCheck maxDrop (x :: y :: rest) position 0 ++ ·) ?_
      refine congrFun (congrArg List.flatMap (funext fun k => ?_)) _
      simp only [gapCheck, List.getD_cons_succ, Nat.add_assoc, Nat.add_comm 1]

/-! ## Items 11 to 14 by place -/

/-- The checks of one band against the limit of the band before it. -/
def bandCheck (set : List Nat) (b : Nat) (above : Option Nat) (x : Band) : List (Bool × MapFault) :=
  [(set.contains x.limit, (11, b)), (above.all (fun u => decide (x.limit ≤ u)), (12, b)),
   (decide (x.occOff < x.occOn), (13, b)), (decide (x.spdOn < x.spdOff), (14, b))]

theorem bandChecks_cons (set : List Nat) (b : Nat) (above : Option Nat) (x : Band) (rest : List Band) :
    bandChecks set b above (x :: rest) = bandCheck set b above x ++ bandChecks set (b + 1) (some x.limit) rest := by
  cases above <;> rfl

/-- The limit the band at place k is held to. -/
def limitAbove (above : Option Nat) (bands : List Band) (k : Nat) : Option Nat :=
  if k = 0 then above else some ((bands.map (·.limit)).getD (k - 1) 0)

/-- The first fault of the bands: of the first band that has one, as long as the place has a band. -/
theorem bandChecks_fault {set : List Nat} {b : Nat} {above : Option Nat} {bands : List Band} {k : Nat} {x : Band}
    {r : MapFault} (hx : bands[k]? = some x)
    (hbefore : ∀ j y, j < k → bands[j]? = some y → firstFault (bandCheck set (b + j) (limitAbove above bands j) y) = none)
    (h : firstFault (bandCheck set (b + k) (limitAbove above bands k) x) = some r) :
    firstFault (bandChecks set b above bands) = some r := by
  induction bands generalizing b above k with
  | nil => simp at hx
  | cons y rest ih =>
    rw [bandChecks_cons, firstFault_append]
    cases k with
    | zero =>
      obtain rfl : y = x := by simpa using hx
      rw [show firstFault (bandCheck set b above y) = some r from h]
      rfl
    | succ k =>
      rw [show firstFault (bandCheck set b above y) = none from hbefore 0 y (Nat.succ_pos k) rfl, Option.none_or]
      have shift : ∀ j, limitAbove (some y.limit) rest j = limitAbove above (y :: rest) (j + 1) := by
        intro j
        cases j <;> rfl
      refine ih (by simpa using hx) (fun j z hj hz => ?_) ?_
      · have := hbefore (j + 1) z (Nat.succ_lt_succ hj) (by simpa using hz)
        rwa [shift, Nat.add_assoc, Nat.add_comm 1]
      · rwa [shift, Nat.add_assoc, Nat.add_comm 1]

theorem bandChecks_none {set : List Nat} {b : Nat} {above : Option Nat} {bands : List Band} :
    firstFault (bandChecks set b above bands) = none ↔
      ∀ k x, bands[k]? = some x → firstFault (bandCheck set (b + k) (limitAbove above bands k) x) = none := by
  constructor
  · intro h k
    induction k using Nat.strongRecOn with
    | ind k ih =>
      intro x hx
      cases hr : firstFault (bandCheck set (b + k) (limitAbove above bands k) x) with
      | none => rfl
      | some r =>
        rw [bandChecks_fault hx (fun j y hj => ih j hj y) hr] at h
        cases h
  · intro h
    induction bands generalizing b above with
    | nil => rfl
    | cons y rest ih =>
      rw [bandChecks_cons, firstFault_append, show firstFault (bandCheck set b above y) = none from h 0 y rfl, Option.none_or]
      refine ih fun k x hx => ?_
      have := h (k + 1) x (by simpa using hx)
      rw [Nat.add_assoc, Nat.add_comm 1]
      cases k <;> exact this

/-! ## Item 3: a table every index of which is defined -/

theorem undefinedIndex_eq_none {s : State} :
    undefinedIndex s.params.gantryCount s.gantries = none ↔ ∀ g, g < s.params.gantryCount → s.gantry? g ≠ none := by
  simp [undefinedIndex, List.find?_eq_none, State.gantry?]

theorem undefinedIndex_eq_some {s : State} {g : Nat} (hg : g < s.params.gantryCount) (h : s.gantry? g = none)
    (hbefore : ∀ m, m < g → s.gantry? m ≠ none) : undefinedIndex s.params.gantryCount s.gantries = some g := by
  rw [undefinedIndex, List.find?_range_eq_some]
  refine ⟨by simpa [State.gantry?] using h, List.mem_range.2 hg, fun m hm => ?_⟩
  simpa [State.gantry?, Option.ne_none_iff_isSome] using hbefore m hm

/-- The chainages of the map, in gantry order. -/
def State.chainages (s : State) : List Nat := (definedRecs s.gantries).map (·.chainage)

theorem definedRecs_of_defined {table : List (Option GantryRec)} (h : ∀ r ∈ table, r ≠ none) :
    table = (definedRecs table).map some := by
  induction table with
  | nil => rfl
  | cons r table ih =>
    cases r with
    | none => exact absurd rfl (h none (by simp))
    | some x => exact congrArg (some x :: ·) (ih fun r hr => h r (by simp [hr]))

theorem State.definedRecs_eq {s : State} (hlen : s.gantries.length = s.params.gantryCount)
    (hdef : ∀ g, g < s.params.gantryCount → s.gantry? g ≠ none) : s.gantries = (definedRecs s.gantries).map some := by
  refine definedRecs_of_defined fun r hr => ?_
  obtain ⟨g, hg, rfl⟩ := List.mem_iff_getElem.1 hr
  have := hdef g (hlen ▸ hg)
  rwa [State.gantry?, List.getElem?_eq_getElem hg] at this

theorem State.definedRecs_length {s : State} (hlen : s.gantries.length = s.params.gantryCount)
    (hdef : ∀ g, g < s.params.gantryCount → s.gantry? g ≠ none) :
    (definedRecs s.gantries).length = s.params.gantryCount := by
  have hlength := congrArg List.length (State.definedRecs_eq hlen hdef)
  rw [List.length_map, hlen] at hlength
  exact hlength.symm

theorem State.chainages_getD {s : State} (hlen : s.gantries.length = s.params.gantryCount)
    (hdef : ∀ g, g < s.params.gantryCount → s.gantry? g ≠ none) (g : Nat) : s.chainages.getD g 0 = s.chainage g := by
  have hgantry : s.gantry? g = (definedRecs s.gantries)[g]? := by
    have hplace : s.gantries[g]? = ((definedRecs s.gantries).map some)[g]? :=
      congrArg (·[g]?) (State.definedRecs_eq hlen hdef)
    rw [State.gantry?, hplace, List.getElem?_map]
    cases (definedRecs s.gantries)[g]? <;> rfl
  rw [State.chainage, hgantry, State.chainages, List.getD_eq_getElem?_getD, List.getElem?_map]
  cases (definedRecs s.gantries)[g]? <;> rfl

/-! ## Items 6 and 7 -/

/-- Item 6 names the gantry of the first panel whose pair was already seen. -/
theorem repeatedPair_eq_some {seen : List PanelAddr} {panels : List (PanelId × PanelAddr)} {k : Nat} {p : PanelId}
    {a : PanelAddr} (hk : panels[k]? = some (p, a)) (ha : a ∈ seen ∨ a ∈ (panels.take k).map Prod.snd)
    (hbefore : ∀ j q b, j < k → panels[j]? = some (q, b) → b ∉ seen ∧ b ∉ (panels.take j).map Prod.snd) :
    repeatedPair seen panels = some p.gantry := by
  induction panels generalizing seen k with
  | nil => simp at hk
  | cons x panels ih =>
    obtain ⟨q, b⟩ := x
    unfold repeatedPair
    cases k with
    | zero =>
      obtain ⟨rfl, rfl⟩ : q = p ∧ b = a := by simpa using hk
      have hseen : b ∈ seen := by simpa using ha
      rw [if_pos (List.contains_iff_mem.2 hseen)]
    | succ k =>
      have hb : ¬ seen.contains b = true := by
        rw [List.contains_iff_mem]
        exact (hbefore 0 q b (Nat.succ_pos k) rfl).1
      rw [if_neg hb]
      refine ih (by simpa using hk) ?_ fun j r c hj hc => ?_
      · simp only [List.take_succ_cons, List.map_cons, List.mem_cons] at ha
        simp only [List.mem_cons]
        exact or_assoc.2 (or_left_comm.1 ha)
      · have := hbefore (j + 1) r c (Nat.succ_lt_succ hj) (by simpa using hc)
        simp only [List.take_succ_cons, List.map_cons, List.mem_cons, not_or] at this
        obtain ⟨hseen, hcb, htake⟩ := this
        simp only [List.mem_cons, not_or]
        exact ⟨⟨hcb, hseen⟩, htake⟩

/-! ## The stages -/

/-- Items 1 to 3. -/
def State.sizeChecks (s : State) : List (Bool × MapFault) :=
  [(decide (s.params.gantryCount ≠ 0), (1, 0)), (decide (s.params.laneCount ≠ 0), (2, 0)),
    noneFound 3 (undefinedIndex s.params.gantryCount s.gantries)]

/-- Items 6 to 9. -/
def State.tableChecks (s : State) : List (Bool × MapFault) :=
  [noneFound 6 (repeatedPair [] (mapPanels s.gantries)), noneFound 7 (crowdedLine (mapPanels s.gantries)),
    (s.speeds.isSome, (8, 0)), (s.bands.isSome, (9, 0))]

/-- The fourteen items by stage: each stage is looked at where those before it pass. -/
theorem State.mapFault_eq (s : State) : s.mapFault =
    (firstFault s.sizeChecks).or ((firstFault (chainageChecks 1 (definedRecs s.gantries))).or
      ((firstFault s.tableChecks).or ((firstFault (gapChecks s.params.maxDrop 2 s.displayable)).or
        (firstFault (bandChecks s.displayable 1 none (s.bands.getD [])))))) := by
  unfold State.mapFault
  rw [firstFault_append, firstFault_append, firstFault_append, firstFault_append]
  simp only [Option.or_assoc]
  rfl

theorem noneFound_fault (item : Nat) (found : Option Nat) (rest : List (Bool × MapFault)) :
    firstFault (noneFound item found :: rest) = (found.map (fun d => (item, d))).or (firstFault rest) := by
  cases found <;> rfl

/-- Every item is one of 1 to 14. -/
theorem State.mapFault_item {s : State} {f : MapFault} (h : s.mapFault = some f) : 1 ≤ f.1 ∧ f.1 ≤ 14 := by
  obtain ⟨c, hc, rfl⟩ := firstFault_mem h
  have bands : ∀ (bands : List Band) (b : Nat) (above : Option Nat), ∀ c ∈ bandChecks s.displayable b above bands,
      1 ≤ c.2.1 ∧ c.2.1 ≤ 14 := by
    intro bands
    induction bands with
    | nil => intro b above c hc; cases hc
    | cons x rest ih =>
      intro b above c hc
      rw [bandChecks_cons] at hc
      rcases List.mem_append.1 hc with hc | hc
      · simp only [bandCheck, List.mem_cons, List.not_mem_nil, or_false] at hc
        rcases hc with rfl | rfl | rfl | rfl <;> simp
      · exact ih _ _ c hc
  simp only [chainageChecks_eq, gapChecks_eq, List.mem_append, List.mem_cons, List.not_mem_nil, or_false,
    List.mem_flatMap, chainageCheck, gapCheck] at hc
  rcases hc with ((((rfl | rfl | rfl) | ⟨k, -, rfl | rfl⟩) | (rfl | rfl | rfl | rfl)) | ⟨k, -, rfl⟩) | hc
  case inr => exact bands _ _ _ c hc
  all_goals simp [noneFound]

theorem State.sizeChecks_pass {s : State} : firstFault s.sizeChecks = none ↔
    s.params.gantryCount ≠ 0 ∧ s.params.laneCount ≠ 0 ∧ ∀ g, g < s.params.gantryCount → s.gantry? g ≠ none := by
  rw [← undefinedIndex_eq_none, firstFault_eq_none]
  simp [State.sizeChecks, noneFound]

theorem chainageCheck_pass {chainages : List Nat} {g k : Nat} :
    firstFault (chainageCheck chainages g k) = none ↔ chainages.getD k 0 + 100 ≤ chainages.getD (k + 1) 0 := by
  rw [firstFault_eq_none]
  simp only [chainageCheck, List.mem_cons, List.not_mem_nil, or_false, forall_eq_or_imp, forall_eq, decide_eq_true_eq]
  omega

/-- Items 4 and 5 of the map, where every index is defined: the first gantry too near the one before it. -/
theorem State.chainages_fault {s : State} (hlen : s.gantries.length = s.params.gantryCount)
    (hdef : ∀ g, g < s.params.gantryCount → s.gantry? g ≠ none) {g : Nat} (h1 : 1 ≤ g) (hg : g < s.params.gantryCount)
    (hbefore : ∀ m, 1 ≤ m → m < g → s.chainage (m - 1) + 100 ≤ s.chainage m)
    (hnear : s.chainage g < s.chainage (g - 1) + 100) :
    firstFault (chainageChecks 1 (definedRecs s.gantries))
      = some (if s.chainage g ≤ s.chainage (g - 1) then 4 else 5, g) := by
  have hk : g - 1 < (definedRecs s.gantries).length - 1 := by
    rw [State.definedRecs_length hlen hdef]
    omega
  have hsucc : 1 + (g - 1) = g := by omega
  have hsucc' : g - 1 + 1 = g := by omega
  rw [chainageChecks_eq]
  refine firstFault_places hk (fun j hj => ?_) ?_
  · have hnext := hbefore (j + 1) (by omega) (by omega)
    rw [Nat.add_sub_cancel] at hnext
    change firstFault (chainageCheck s.chainages 1 j) = none
    rw [chainageCheck_pass, State.chainages_getD hlen hdef, State.chainages_getD hlen hdef]
    exact hnext
  · change firstFault (chainageCheck s.chainages 1 (g - 1)) = _
    simp only [chainageCheck, State.chainages_getD hlen hdef, firstFault_cons, hsucc, hsucc', decide_eq_true_eq]
    by_cases hrise : s.chainage (g - 1) < s.chainage g
    · rw [if_pos hrise, if_neg (by omega), if_neg (by omega)]
    · rw [if_neg hrise, if_pos (by omega)]

theorem State.chainages_pass {s : State} (hlen : s.gantries.length = s.params.gantryCount)
    (hdef : ∀ g, g < s.params.gantryCount → s.gantry? g ≠ none) :
    firstFault (chainageChecks 1 (definedRecs s.gantries)) = none
      ↔ ∀ m, m + 1 < s.params.gantryCount → s.chainage m + 100 ≤ s.chainage (m + 1) := by
  rw [chainageChecks_eq, firstFault_places_none, State.definedRecs_length hlen hdef]
  change (∀ k, k < s.params.gantryCount - 1 → firstFault (chainageCheck s.chainages 1 k) = none) ↔ _
  simp only [chainageCheck_pass, State.chainages_getD hlen hdef]
  exact ⟨fun h m hm => h m (by omega), fun h k hk => h k (by omega)⟩

theorem State.tableChecks_pass {s : State} : firstFault s.tableChecks = none ↔
    ((mapPanels s.gantries).map Prod.snd).Nodup
      ∧ (∀ l, ((mapPanels s.gantries).filter (fun x => x.2.line == l)).length ≤ 64)
      ∧ s.speeds.isSome = true ∧ s.bands.isSome = true := by
  have pair : repeatedPair [] (mapPanels s.gantries) = none ↔ ((mapPanels s.gantries).map Prod.snd).Nodup := by
    rw [repeatedPair_eq_none]
    simp
  rw [← pair, ← crowdedLine_eq_none, firstFault_eq_none]
  simp [State.tableChecks, noneFound]

theorem gapCheck_pass {maxDrop position k : Nat} {set : List Nat} (hk : k < set.length - 1) :
    firstFault (gapCheck maxDrop set position k) = none
      ↔ ∀ u w, set[k]? = some u → set[k + 1]? = some w → w ≤ u + maxDrop := by
  rw [firstFault_eq_none]
  simp only [gapCheck, List.mem_singleton, forall_eq, decide_eq_true_eq, List.getD_eq_getElem?_getD,
    List.getElem?_eq_getElem (show k < set.length by omega), List.getElem?_eq_getElem (show k + 1 < set.length by omega),
    Option.getD_some, Option.some.injEq]
  constructor
  · rintro h u w rfl rfl
    omega
  · intro h
    have := h _ _ rfl rfl
    omega

theorem gapChecks_pass {maxDrop position : Nat} {set : List Nat} : firstFault (gapChecks maxDrop position set) = none
    ↔ ∀ j u w, set[j]? = some u → set[j + 1]? = some w → w ≤ u + maxDrop := by
  rw [gapChecks_eq, firstFault_places_none]
  refine ⟨fun h j u w hu hw => ?_, fun h k hk => (gapCheck_pass hk).2 (h k)⟩
  have hlen := (List.getElem?_eq_some_iff.1 hw).1
  have hj : j < set.length - 1 := by omega
  exact (gapCheck_pass hj).1 (h j hj) u w hu hw

/-- Item 10: the first gap above max_drop, by the position of its upper value. -/
theorem gapChecks_fault {maxDrop : Nat} {set : List Nat} {k x y : Nat} (hx : set[k]? = some x) (hy : set[k + 1]? = some y)
    (hwide : x + maxDrop < y)
    (hbefore : ∀ j u w, j < k → set[j]? = some u → set[j + 1]? = some w → w ≤ u + maxDrop) :
    firstFault (gapChecks maxDrop 2 set) = some (10, k + 2) := by
  have hlen : k + 1 < set.length := (List.getElem?_eq_some_iff.1 hy).1
  rw [gapChecks_eq]
  refine firstFault_places (k := k) (by omega) (fun j hj => (gapCheck_pass (by omega)).2 fun u w => hbefore j u w hj) ?_
  simp only [gapCheck, firstFault_cons, List.getD_eq_getElem?_getD, hx, hy, Option.getD_some, decide_eq_true_eq]
  rw [if_neg (by omega), Nat.add_comm]

/-- The first of items 11 to 14 that fails for the band at a place; 0 where none does. -/
def bandItem (set : List Nat) (bands : List Band) (k : Nat) (x : Band) : Nat :=
  if x.limit ∉ set then 11
  else if 1 ≤ k ∧ (bands.map (·.limit)).getD (k - 1) 0 < x.limit then 12
  else if x.occOn ≤ x.occOff then 13
  else if x.spdOff ≤ x.spdOn then 14 else 0

theorem firstFault_bandCheck (set : List Nat) (bands : List Band) (k : Nat) (x : Band) :
    firstFault (bandCheck set (1 + k) (limitAbove none bands k) x)
      = if bandItem set bands k x = 0 then none else some (bandItem set bands k x, k + 1) := by
  have above : (limitAbove none bands k).all (fun u => decide (x.limit ≤ u))
      = !decide (1 ≤ k ∧ (bands.map (·.limit)).getD (k - 1) 0 < x.limit) := by
    rw [Bool.eq_iff_iff]
    cases k with
    | zero => simp [limitAbove]
    | succ k => simp [limitAbove]
  have member : set.contains x.limit = decide (x.limit ∈ set) := by simp
  simp only [bandCheck, firstFault_cons, above, member, bandItem, Nat.add_comm 1 k]
  by_cases h11 : x.limit ∈ set
  · by_cases h12 : 1 ≤ k ∧ (bands.map (·.limit)).getD (k - 1) 0 < x.limit
    · simp only [h11, h12, decide_true, not_true]
      rfl
    · by_cases h13 : x.occOff < x.occOn
      · by_cases h14 : x.spdOn < x.spdOff
        · simp only [h11, h12, h13, h14, Nat.not_le.2 h13, Nat.not_le.2 h14, decide_true, decide_false, Bool.not_false,
            not_true, if_true, if_false]
          rfl
        · simp only [h11, h12, h13, h14, Nat.not_le.2 h13, Nat.not_lt.1 h14, decide_true, decide_false, Bool.not_false,
            not_true, if_true, if_false]
          rfl
      · simp only [h11, h12, h13, Nat.not_lt.1 h13, decide_true, decide_false, Bool.not_false, not_true, if_true, if_false]
        rfl
  · simp only [h11, decide_false, not_false_iff, if_true]
    rfl

end Sys2Proof.Machine
end

section
/-! START (R10 to R12, R70, R109, R119): the map it refuses and the fault it names, and the run it makes. -/

namespace Sys2Proof.Machine

open Sys2Proof

/-! ## The map holds together exactly where no item fails -/

theorem bandItem_eq_zero {set : List Nat} {bands : List Band} {k : Nat} {x : Band} : bandItem set bands k x = 0 ↔
    x.limit ∈ set ∧ ¬ (1 ≤ k ∧ (bands.map (·.limit)).getD (k - 1) 0 < x.limit) ∧ x.occOff < x.occOn
      ∧ x.spdOn < x.spdOff := by
  unfold bandItem
  by_cases h11 : x.limit ∈ set
  · by_cases h12 : 1 ≤ k ∧ (bands.map (·.limit)).getD (k - 1) 0 < x.limit
    · rw [if_neg (not_not_intro h11), if_pos h12]
      exact iff_of_false (by decide) fun h => h.2.1 h12
    · rw [if_neg (not_not_intro h11), if_neg h12]
      by_cases h13 : x.occOff < x.occOn
      · rw [if_neg (Nat.not_le.2 h13)]
        by_cases h14 : x.spdOn < x.spdOff
        · rw [if_neg (Nat.not_le.2 h14)]
          exact iff_of_true rfl ⟨h11, h12, h13, h14⟩
        · rw [if_pos (Nat.not_lt.1 h14)]
          exact iff_of_false (by decide) fun h => h14 h.2.2.2
      · rw [if_pos (Nat.not_lt.1 h13)]
        exact iff_of_false (by decide) fun h => h13 h.2.2.1
  · rw [if_pos h11]
    exact iff_of_false (by decide) fun h => h11 h.1

/-- A band's limit is held to the one of the band before it. -/
theorem limit_not_above {bands : List Band} {k : Nat} {x : Band} (hx : bands[k]? = some x) :
    (¬ (1 ≤ k ∧ (bands.map (·.limit)).getD (k - 1) 0 < x.limit))
      ↔ ∀ j a, j + 1 = k → bands[j]? = some a → x.limit ≤ a.limit := by
  cases k with
  | zero => simp
  | succ k =>
    have hlen := (List.getElem?_eq_some_iff.1 hx).1
    have hk : bands[k]? = some bands[k] := List.getElem?_eq_getElem (by omega)
    simp only [Nat.le_add_left, true_and, Nat.add_sub_cancel, List.getD_eq_getElem?_getD, List.getElem?_map, hk,
      Option.map_some, Option.getD_some, Nat.not_lt]
    constructor
    · rintro h j a hj ha
      obtain rfl : j = k := Nat.succ.inj hj
      rw [hk] at ha
      exact Option.some.inj ha ▸ h
    · intro h
      exact h k _ rfl hk

theorem bandChecks_pass {set : List Nat} {bands : List Band} : firstFault (bandChecks set 1 none bands) = none ↔
    ∀ k x, bands[k]? = some x → bandItem set bands k x = 0 := by
  rw [bandChecks_none]
  simp only [firstFault_bandCheck, ite_eq_left_iff, reduceCtorEq, imp_false, Decidable.not_not]

/-- The bands of a map that holds together. -/
theorem bandItems_consistent {set : List Nat} {bands : List Band} :
    (∀ k x, bands[k]? = some x → bandItem set bands k x = 0) ↔ ∀ i b, bands[i]? = some b →
      b.limit ∈ set ∧ b.occOff < b.occOn ∧ b.spdOn < b.spdOff
        ∧ ∀ j a, j + 1 = i → bands[j]? = some a → b.limit ≤ a.limit := by
  refine forall₃_congr fun k x hx => ?_
  rw [bandItem_eq_zero, limit_not_above hx]
  exact ⟨fun ⟨hlimit, habove, hocc, hspd⟩ => ⟨hlimit, hocc, hspd, habove⟩,
    fun ⟨hlimit, hocc, hspd, habove⟩ => ⟨hlimit, habove, hocc, hspd⟩⟩

/-- START finds no fault exactly in a map that holds together (R10). -/
theorem State.mapFault_eq_none {s : State} (hlen : s.gantries.length = s.params.gantryCount) :
    s.mapFault = none ↔ MapConsistent s := by
  have defined : (∀ g, g < s.params.gantryCount → s.gantry? g ≠ none)
      ↔ ∀ g, g < s.params.gantryCount → (s.gantry? g).isSome = true := by
    simp [Option.isSome_iff_ne_none]
  rw [State.mapFault_eq, Option.or_eq_none_iff, Option.or_eq_none_iff, Option.or_eq_none_iff, Option.or_eq_none_iff,
    State.sizeChecks_pass, State.tableChecks_pass, gapChecks_pass, bandChecks_pass, bandItems_consistent]
  constructor
  · rintro ⟨⟨hg, hn, hdef⟩, hchain, ⟨hpair, hline, hspeeds, hbands⟩, hgaps, hitems⟩
    exact ⟨hg, hn, defined.1 hdef, (State.chainages_pass hlen hdef).1 hchain, hpair, hline, hspeeds, hbands, hgaps, hitems⟩
  · rintro ⟨hg, hn, hdef, hchain, hpair, hline, hspeeds, hbands, hgaps, hitems⟩
    exact ⟨⟨hg, hn, defined.2 hdef⟩, (State.chainages_pass hlen (defined.2 hdef)).2 hchain,
      ⟨hpair, hline, hspeeds, hbands⟩, hgaps, hitems⟩

/-! ## The answers of START -/

theorem start_refused {s : State} {tag v : Byte} (hr : s.receptive) (hs : s.operating = .stopped) {item detail : Nat}
    (h : s.mapFault = some (item, detail)) :
    OnlyAnswers (.start tag [v]) s 0x94 tag [0x05, byteOf item, byteOf detail] := by
  refine OnlyAnswers.of_effect (k := .start) hr (by simp) rfl (by simp) ?_
  have hheard : s.heard.mapFault = some (item, detail) := h
  simp only [requestEffect, startEffect, hheard, if_neg (State.heard_not_running hs)]
  rfl

theorem start_runs {s : State} {tag v : Byte} (hr : s.receptive) (hs : s.operating = .stopped) (h : s.mapFault = none) :
    Acts (.start tag [v]) s 0x94 tag [0x00] (s.startRun v.toNat) [] := by
  refine Acts.of_effect (k := .start) (t := s.heard.startRun v.toNat) (rs := []) hr (by simp) rfl (by simp) ?_ rfl hr.1 rfl
  have hheard : s.heard.mapFault = none := h
  simp only [requestEffect, startEffect, hheard, if_neg (State.heard_not_running hs)]
  rfl

/-! ## The first fault, stage by stage -/

theorem State.mapFault_sizes {s : State} {f : MapFault} (h : firstFault s.sizeChecks = some f) : s.mapFault = some f := by
  rw [State.mapFault_eq, h]
  rfl

theorem State.mapFault_chainages {s : State} {f : MapFault} (hsizes : firstFault s.sizeChecks = none)
    (h : firstFault (chainageChecks 1 (definedRecs s.gantries)) = some f) : s.mapFault = some f := by
  rw [State.mapFault_eq, hsizes, h]
  rfl

theorem State.mapFault_tables {s : State} {f : MapFault} (hsizes : firstFault s.sizeChecks = none)
    (hchain : firstFault (chainageChecks 1 (definedRecs s.gantries)) = none) (h : firstFault s.tableChecks = some f) :
    s.mapFault = some f := by
  rw [State.mapFault_eq, hsizes, hchain, h]
  rfl

theorem State.mapFault_gaps {s : State} {f : MapFault} (hsizes : firstFault s.sizeChecks = none)
    (hchain : firstFault (chainageChecks 1 (definedRecs s.gantries)) = none) (htables : firstFault s.tableChecks = none)
    (h : firstFault (gapChecks s.params.maxDrop 2 s.displayable) = some f) : s.mapFault = some f := by
  rw [State.mapFault_eq, hsizes, hchain, htables, h]
  rfl

theorem State.mapFault_bands {s : State} {f : MapFault} (hsizes : firstFault s.sizeChecks = none)
    (hchain : firstFault (chainageChecks 1 (definedRecs s.gantries)) = none) (htables : firstFault s.tableChecks = none)
    (hgaps : firstFault (gapChecks s.params.maxDrop 2 s.displayable) = none)
    (h : firstFault (bandChecks s.displayable 1 none (s.bands.getD [])) = some f) : s.mapFault = some f := by
  rw [State.mapFault_eq, hsizes, hchain, htables, hgaps, h]
  rfl

/-- Items 6 to 9: what the first failing one names. -/
theorem State.tableChecks_fault {s : State} {panels : List (PanelId × PanelAddr)} (hpanels : panels = mapPanels s.gantries) :
    (∀ d, repeatedPair [] panels = some d → firstFault s.tableChecks = some (6, d))
    ∧ (repeatedPair [] panels = none →
        (∀ d, crowdedLine panels = some d → firstFault s.tableChecks = some (7, d))
        ∧ (crowdedLine panels = none →
            (s.speeds = none → firstFault s.tableChecks = some (8, 0))
            ∧ (s.speeds ≠ none → s.bands = none → firstFault s.tableChecks = some (9, 0)))) := by
  subst hpanels
  refine ⟨fun d h6 => ?_, fun h6 => ⟨fun d h7 => ?_, fun h7 => ⟨fun h8 => ?_, fun h8 h9 => ?_⟩⟩⟩
  · simp [State.tableChecks, noneFound, firstFault, h6]
  · simp [State.tableChecks, noneFound, firstFault, h6, h7]
  · simp [State.tableChecks, noneFound, firstFault, h6, h7, h8]
  · simp [State.tableChecks, noneFound, firstFault, h6, h7, h9, Option.isSome_iff_ne_none.2 h8]

/-- The first of the lines A to D with more than 64 panels. -/
theorem crowdedLine_first (panels : List (PanelId × PanelAddr)) (l : LineId) (before after : List LineId)
    (hl : lineIds = before ++ l :: after) (hc : 64 < (panels.filter (fun x => x.2.line == l)).length)
    (hbefore : ∀ m ∈ before, (panels.filter (fun x => x.2.line == m)).length ≤ 64) :
    crowdedLine panels = some (lineCode l).toNat := by
  have hnone : before.find? (fun m => decide (Config.linePanels < (panels.filter (fun x => x.2.line == m)).length)) = none := by
    rw [List.find?_eq_none]
    intro m hm
    simpa [Config.linePanels] using hbefore m hm
  rw [crowdedLine, hl, List.find?_append, hnone, Option.none_or, List.find?_cons_of_pos (by simpa [Config.linePanels] using hc)]
  rfl

/-- Settles O27: every clause is a fault of one stage, where the stages before it pass. -/
theorem startRefusesAnInconsistentMap : Obligations.StartRefusesAnInconsistentMap := by
  intro s tag v hr hs hlen refused panels used onLine bands bandFault
  have fault : ∀ item detail, s.mapFault = some (item, detail) → refused item detail :=
    fun item detail h => start_refused hr hs h
  refine ⟨fun hincon => ?_, fun hcon => ⟨_, start_runs hr hs ((State.mapFault_eq_none hlen).2 hcon)⟩, fun hg => ?_,
    fun hg hn => ?_, fun hg hn => ⟨fun g hlt hundef hbefore => ?_, fun hdef => ?_⟩⟩
  · cases hf : s.mapFault with
    | none => exact absurd ((State.mapFault_eq_none hlen).1 hf) hincon
    | some f => exact ⟨f.1, f.2, (State.mapFault_item hf).1, (State.mapFault_item hf).2, fault _ _ hf⟩
  · exact fault _ _ (State.mapFault_sizes (by simp [State.sizeChecks, firstFault, hg]))
  · exact fault _ _ (State.mapFault_sizes (by simp [State.sizeChecks, firstFault, hg, hn]))
  · refine fault _ _ (State.mapFault_sizes ?_)
    simp [State.sizeChecks, firstFault, noneFound, hg, hn, undefinedIndex_eq_some hlt hundef hbefore]
  have hsizes := State.sizeChecks_pass.2 ⟨hg, hn, hdef⟩
  refine ⟨fun g h1 hlt hbefore => ⟨fun hfall => ?_, fun hrise hnear => ?_⟩, fun hapart => ?_⟩
  · refine fault _ _ (State.mapFault_chainages hsizes ?_)
    rw [State.chainages_fault hlen hdef h1 hlt hbefore (by omega), if_pos hfall]
  · refine fault _ _ (State.mapFault_chainages hsizes ?_)
    rw [State.chainages_fault hlen hdef h1 hlt hbefore hnear, if_neg (by omega)]
  have hchain := (State.chainages_pass hlen hdef).2 fun m hm => hapart (m + 1) (by omega) hm
  obtain ⟨hrepeated, hdistinct⟩ := State.tableChecks_fault (s := s) (panels := panels) rfl
  refine ⟨fun k p a hk ha hbefore => ?_, fun hnodup => ?_⟩
  · refine fault _ _ (State.mapFault_tables hsizes hchain (hrepeated _ (repeatedPair_eq_some hk (.inr ha) ?_)))
    exact fun j q b hj hb => ⟨by simp, hbefore j q b hj hb⟩
  obtain ⟨hcrowded, hroom⟩ := hdistinct (repeatedPair_eq_none.2 ⟨hnodup, by simp⟩)
  have crowded : ∀ l before after, lineIds = before ++ l :: after → 64 < onLine l → (∀ m ∈ before, onLine m ≤ 64) →
      refused 7 (lineCode l).toNat := fun l before after hl hc hb =>
    fault _ _ (State.mapFault_tables hsizes hchain (hcrowded _ (crowdedLine_first panels l before after hl hc hb)))
  refine ⟨fun ha => crowded .a [] [.b, .c, .d] rfl ha (by simp),
    fun ha hb => crowded .b [.a] [.c, .d] rfl hb (by simpa using ha),
    fun ha hb hc => crowded .c [.a, .b] [.d] rfl hc (by simpa using ⟨ha, hb⟩),
    fun ha hb hc hd => crowded .d [.a, .b, .c] [] rfl hd (by simpa using ⟨ha, hb, hc⟩), fun hline => ?_⟩
  obtain ⟨hnospeeds, hnobands⟩ := hroom (crowdedLine_eq_none.2 hline)
  refine ⟨fun hs8 => fault _ _ (State.mapFault_tables hsizes hchain (hnospeeds hs8)),
    fun hs8 hb9 => fault _ _ (State.mapFault_tables hsizes hchain (hnobands hs8 hb9)), fun hspeeds hbands => ?_⟩
  have htables := State.tableChecks_pass.2
    ⟨hnodup, hline, Option.isSome_iff_ne_none.2 hspeeds, Option.isSome_iff_ne_none.2 hbands⟩
  refine ⟨fun k x y hx hy hwide hbefore =>
    fault _ _ (State.mapFault_gaps hsizes hchain htables (gapChecks_fault hx hy hwide hbefore)), fun hgaps k item => ?_⟩
  rintro ⟨x, hx, hitem⟩ hne hbefore
  have hnamed : item = bandItem s.displayable (s.bands.getD []) k x := hitem
  refine fault _ _ (State.mapFault_bands hsizes hchain htables (gapChecks_pass.2 hgaps) (bandChecks_fault hx ?_ ?_))
  · intro j y hj hy
    obtain ⟨z, hz, hzero⟩ := hbefore j hj
    obtain rfl : y = z := Option.some.inj (hy.symm.trans hz)
    rw [firstFault_bandCheck, if_pos (show bandItem _ _ _ _ = 0 from hzero.symm)]
  · rw [firstFault_bandCheck, if_neg (fun h => hne (hnamed.trans h)), ← hnamed]

end Sys2Proof.Machine
end

section
/-! START's run (R11, R12, R70, R109, R119): an event run over records that all show one value lowers every gantry to its
target at once. -/

namespace Sys2Proof.Machine

open Sys2Proof

/-! ## Sweeps (R74, R77, R80) -/

theorem sweepFrom_length (set : List Nat) (maxDrop : Nat) (gantries : List (Nat × Bool)) :
    (sweepFrom set maxDrop gantries).1.length = gantries.length := by
  induction gantries with
  | nil => rfl
  | cons x rest ih => exact congrArg (· + 1) ih

/-- A sweep raises no value. -/
theorem sweepFrom_le (set : List Nat) (maxDrop : Nat) (gantries : List (Nat × Bool)) {k v : Nat} {x : Nat × Bool}
    (hv : (sweepFrom set maxDrop gantries).1[k]? = some v) (hx : gantries[k]? = some x) : v ≤ x.1 := by
  induction gantries generalizing k with
  | nil => simp at hx
  | cons y rest ih =>
    cases k with
    | zero =>
      obtain rfl : y = x := by simpa using hx
      simp only [sweepFrom, List.getElem?_cons_zero, Option.some.injEq] at hv
      subst hv
      split
      · exact Nat.le_refl _
      · exact Nat.min_le_left _ _
    | succ k => exact ih (by simpa [sweepFrom] using hv) (by simpa using hx)

/-- The values of a sweep, swept again from themselves, stand. -/
theorem sweepFrom_again (set : List Nat) (maxDrop : Nat) (gantries : List (Nat × Bool)) :
    sweepFrom set maxDrop (List.zipWith (fun v x => (v, x.2)) (sweepFrom set maxDrop gantries).1 gantries)
      = sweepFrom set maxDrop gantries := by
  induction gantries with
  | nil => rfl
  | cons x rest ih =>
    obtain ⟨own, dark⟩ := x
    simp only [sweepFrom, List.zipWith_cons_cons, ih]
    cases (sweepFrom set maxDrop rest).2 with
    | none => rfl
    | some h => simp only [Nat.min_assoc, Nat.min_self]

/-! ## Rounding (00 Conventions) -/

theorem roundDown_some {set : List Nat} {v x : Nat} (h : roundDown set v = some x) :
    x ∈ set ∧ x ≤ v ∧ ∀ y ∈ set, y ≤ v → y ≤ x := by
  obtain ⟨hx, hmax⟩ := List.max?_eq_some_iff.1 h
  obtain ⟨hmem, hle⟩ := List.mem_filter.1 hx
  exact ⟨hmem, by simpa using hle, fun y hy hyv => hmax y (List.mem_filter.2 ⟨hy, by simpa using hyv⟩)⟩

theorem roundDown_none {set : List Nat} {v : Nat} (h : roundDown set v = none) : ∀ y ∈ set, v < y := by
  have hnil := List.max?_eq_none_iff.1 h
  intro y hy
  refine Nat.lt_of_not_le fun hle => ?_
  have : y ∈ set.filter (fun m => decide (m ≤ v)) := List.mem_filter.2 ⟨hy, by simpa using hle⟩
  rw [hnil] at this
  cases this

/-- In a rising set a lower value is not rounded to a higher member. -/
theorem roundInto_mono {set : List Nat} (hrise : set.Pairwise (· < ·)) {a b : Nat} (h : a ≤ b) :
    roundInto set a ≤ roundInto set b := by
  have head : ∀ y ∈ set, set.headD 0 ≤ y := by
    intro y hy
    cases set with
    | nil => cases hy
    | cons x rest =>
      rcases List.mem_cons.1 hy with rfl | hy
      · exact Nat.le_refl _
      · exact Nat.le_of_lt (List.rel_of_pairwise_cons hrise hy)
  unfold roundInto
  cases ha : roundDown set a with
  | none =>
    cases hb : roundDown set b with
    | none => exact Nat.le_refl _
    | some y => exact head y (roundDown_some hb).1
  | some x =>
    obtain ⟨hx, hxa, -⟩ := roundDown_some ha
    cases hb : roundDown set b with
    | none => exact absurd (roundDown_none hb x hx) (by omega)
    | some y => exact (roundDown_some hb).2.2 x hx (Nat.le_trans hxa h)

/-! ## An event run over level records -/

/-- In an event run a target at or below the shown limit is the candidate, and nothing waits (R75). -/
theorem candidate_of_le (set : List Nat) (holdUp wait : Nat) {target shown : Nat} (h : target ≤ shown) :
    candidate set holdUp false target shown wait = (target, 0) := by
  unfold candidate
  rcases Nat.lt_or_eq_of_le h with hlt | rfl
  · rw [if_pos hlt]
  · rw [if_neg (Nat.lt_irrefl _), if_pos rfl]

theorem State.targets_length (s : State) (initial : Option Nat) : (s.targets initial).length = s.params.gantryCount := by
  rw [State.targets, sweep, sweepFrom_length, List.length_map, List.length_range]

theorem State.targets_le {s : State} {initial : Option Nat} {g : Nat} (hg : g < s.params.gantryCount) :
    (s.targets initial).getD g 0 ≤ roundInto s.displayable (lowest (s.demandSources initial g)) := by
  have hlen : g < (s.targets initial).length := by rwa [State.targets_length]
  rw [List.getD_eq_getElem?_getD, List.getElem?_eq_getElem hlen, Option.getD_some]
  exact sweepFrom_le s.displayable s.params.maxDrop _ (List.getElem?_eq_getElem hlen)
    (x := (roundInto s.displayable (lowest (s.demandSources initial g)), darkAt s.panels g)) (by simp [hg])

theorem State.candidates_at (s : State) (timed : Bool) (targets : List Nat) {g : Nat} (hg : g < s.params.gantryCount) :
    (s.candidates timed targets).getD g (0, 0)
      = candidate s.displayable s.params.holdUp timed (targets.getD g 0) (s.planAt g).shown (s.planAt g).riseWait := by
  simp [State.candidates, List.getD_eq_getElem?_getD, hg]

/-- Where every target is the candidate, the final sweep leaves the targets (R77). -/
theorem State.shownLimits_targets {s : State} {initial : Option Nat} {candidates : List (Nat × Nat)}
    (h : ∀ g, g < s.params.gantryCount → (candidates.getD g (0, 0)).1 = (s.targets initial).getD g 0) :
    s.shownLimits candidates = s.targets initial := by
  have own : (List.range s.params.gantryCount).map (fun g => ((candidates.getD g (0, 0)).1, darkAt s.panels g))
      = List.zipWith (fun v x => (v, x.2)) (s.targets initial) ((List.range s.params.gantryCount).map
          (fun g => (roundInto s.displayable (lowest (s.demandSources initial g)), darkAt s.panels g))) := by
    refine List.ext_getElem (by simp [State.targets_length]) fun g hg hg' => ?_
    have hlt : g < s.params.gantryCount := by simpa using hg
    have hlen : g < (s.targets initial).length := by rwa [State.targets_length]
    have hval : (candidates.getD g (0, 0)).1 = (s.targets initial)[g] := by
      rw [h g hlt, List.getD_eq_getElem?_getD, List.getElem?_eq_getElem hlen]
      rfl
    simp only [List.getElem_map, List.getElem_range, List.getElem_zipWith, hval]
  rw [State.shownLimits, own]
  exact congrArg Prod.fst (sweepFrom_again s.displayable s.params.maxDrop _)

/-- An event run over records that show one value, which no rounded demand exceeds: every gantry shows its target. -/
theorem State.planRun_level {s : State} {initial : Option Nat} {level : Nat}
    (hshown : ∀ g, g < s.params.gantryCount → (s.planAt g).shown = level)
    (hdemand : ∀ g, g < s.params.gantryCount → roundInto s.displayable (lowest (s.demandSources initial g)) ≤ level)
    {g : Nat} (hg : g < s.params.gantryCount) :
    ∃ r, (s.planRun false initial)[g]? = some r ∧ r.demand = lowest (s.demandSources initial g) ∧ r.shown = r.target
      ∧ r.riseWait = 0 ∧ r.shown ≤ level := by
  have target_le : ∀ g, g < s.params.gantryCount → (s.targets initial).getD g 0 ≤ level :=
    fun g hg => Nat.le_trans (State.targets_le hg) (hdemand g hg)
  have cand : ∀ g, g < s.params.gantryCount →
      (s.candidates false (s.targets initial)).getD g (0, 0) = ((s.targets initial).getD g 0, 0) := by
    intro g hg
    rw [State.candidates_at s false _ hg, hshown g hg]
    exact candidate_of_le _ _ _ (target_le g hg)
  have hlimits := State.shownLimits_targets (s := s) (initial := initial) fun g hg => congrArg Prod.fst (cand g hg)
  refine ⟨_, State.planRun_at s false initial hg, rfl, ?_, ?_, ?_⟩
  · simp only [finishRec, hlimits]
  · simp only [finishRec, cand g hg]
    exact ite_self 0
  · simp only [finishRec, hlimits]
    exact target_le g hg

/-! ## What a panel's sources name (R112, R115) -/

theorem SpeedCause.cause_ne (c : SpeedCause) : c.cause ≠ .recovered ∧ c.cause ≠ .failed := by
  cases c <;> exact ⟨by simp [SpeedCause.cause], by simp [SpeedCause.cause]⟩

/-- A source is a plan, an operator, a warning or a closure. -/
theorem State.sourceOf_cause (s : State) (p : PanelId) :
    (s.sourceOf p).2 ≠ .recovered ∧ (s.sourceOf p).2 ≠ .failed := by
  unfold State.sourceOf
  split
  · unfold State.messageSource
    (repeat' split) <;> exact ⟨by simp, by simp⟩
  · unfold State.laneSource
    split
    · exact ⟨by simp, by simp⟩
    · split
      · exact ⟨by simp, by simp⟩
      · exact SpeedCause.cause_ne _

/-! ## The obligation -/

theorem State.startLegends_getD (s : State) (g : Nat) :
    s.startLegends.getD g 0 = if s.hasMessage g then s.legendAt g else 0 := by
  simp only [State.startLegends, State.legendAt, List.getD_eq_getElem?_getD, List.getElem?_map, List.getElem?_zipIdx]
  cases s.legends[g]? <;> simp

/-- R12: the queue START gives a line is that of its panels in map order. -/
theorem State.startRun_lines (s : State) (initial : Nat) (l : LineId) :
    (s.startRun initial).lines.get l = { s.lines.get l with queue :=
      ((mapPanels s.gantries).filter (fun x => x.2.line == l)).map (fun x => ⟨x.2.address, .safety⟩) } := by
  have queue : startQueue s.startPanels l
      = ((mapPanels s.gantries).filter (fun x => x.2.line == l)).map (fun x => ⟨x.2.address, .safety⟩) := by
    rw [startQueue, State.startPanels, List.filter_map, List.map_map]
    rfl
  rw [← queue]
  cases l <;> rfl

/-- START's plan (R70): every gantry at its target, at or below the rounded initial limit. -/
theorem State.startRun_plan {s : State} (hset : s.displayable.Pairwise (· < ·)) (initial : Nat) {g : Nat}
    (hg : g < s.params.gantryCount) :
    ((s.startRun initial).planAt g).demand ≤ initial
      ∧ ((s.startRun initial).planAt g).shown = ((s.startRun initial).planAt g).target
      ∧ ((s.startRun initial).planAt g).riseWait = 0
      ∧ ((s.startRun initial).planAt g).shown ≤ roundInto s.displayable initial := by
  have demand_le : ∀ g, lowest ((s.startBlocks initial).demandSources (some initial) g) ≤ initial := fun g =>
    lowest_le (x := (.initial, initial)) (by simp [State.demandSources])
  have hshown : ∀ g, g < (s.startBlocks initial).params.gantryCount →
      ((s.startBlocks initial).planAt g).shown = roundInto s.displayable initial := by
    intro g hg
    have hrec : (s.startBlocks initial).plan[g]? = some (PlanRec.from (roundInto s.displayable initial)) := by
      change (List.replicate s.params.gantryCount _)[g]? = _
      rw [List.getElem?_replicate, if_pos (show g < s.params.gantryCount from hg)]
    rw [State.planAt_eq hrec]
    rfl
  obtain ⟨r, hr, hdemand, htarget, hwait, hle⟩ :=
    State.planRun_level hshown (fun g _ => roundInto_mono hset (demand_le g)) hg
  have hplan : (s.startRun initial).planAt g = r := State.planAt_eq hr
  rw [hplan, hdemand]
  exact ⟨demand_le g, htarget, hwait, hle⟩

/-- Settles O28: `State.startRun` read field by field, its plan by `State.startRun_plan`. -/
theorem startRunsTheCorridor : Obligations.StartRunsTheCorridor := by
  intro s tag v hr hs hheld hcon
  have hset : s.displayable.Pairwise (· < ·) := by
    unfold State.displayable
    cases hspeeds : s.speeds with
    | none => exact List.Pairwise.nil
    | some set => exact (hheld.2 set hspeeds).2
  refine ⟨s.startRun v.toNat, start_runs hr hs ((State.mapFault_eq_none hheld.1).2 hcon), rfl, rfl, rfl, rfl, rfl, rfl,
    fun i => ?_, rfl, fun g hg => State.startRun_plan hset v.toNat hg, rfl, State.startRun_lines s v.toNat, rfl, rfl, ?_,
    fun e he => ?_, State.startLegends_getD s, rfl⟩
  · refine mem_startInsts.trans ⟨?_, ?_⟩
    · rintro ⟨hp, prog, hprog, hi⟩
      obtain ⟨-, hg, hf, hl, hc, hw, hfired⟩ := mem_newInsts.1 hi
      exact ⟨prog, hprog, hp, hg, hf, hl, hc, hw, hfired⟩
    · rintro ⟨prog, hprog, hp, hg, hf, hl, hc, hw, hfired⟩
      exact ⟨hp, prog, hprog, mem_newInsts.2 ⟨rfl, hg, hf, hl, hc, hw, hfired⟩⟩
  · change (s.startPanels.map _) = _
    rw [State.startPanels, List.map_map]
    rfl
  · obtain ⟨r, -, rfl⟩ := List.mem_map.1 he
    exact State.sourceOf_cause _ r.panel

end Sys2Proof.Machine
end

section
/-! The evaluation of one working record (R45 to R52): what a comparator reads, what the two results make, and what the outcome
does to the counter. -/

namespace Sys2Proof.Machine

open Sys2Proof

/-! ## The counter (R51, R52) -/

/-- A FIRED record keeps everything but its window. -/
theorem applyQ_of_fired {p : Program} {i : TrigInst} (h : i.fired = true) (q : Option Bool) (window : Nat) (f : Firing) :
    applyQ p i q window f = ⟨{ i with window := window }, q, none⟩ := if_pos h

theorem applyQ_counts {p : Program} {i : TrigInst} (h : i.fired = false) (hc : 0 < i.counter) (window : Nat) (f : Firing) :
    applyQ p i (some true) window f = ⟨{ i with counter := i.counter - 1, window := window }, some true, none⟩ := by
  simp [applyQ, h, Nat.ne_of_gt hc]

theorem applyQ_fires {p : Program} {i : TrigInst} (h : i.fired = false) (hc : i.counter = 0) (window : Nat) (f : Firing) :
    applyQ p i (some true) window f =
      ⟨⟨i.program, i.gantry, if p.actions.rearm then p.preset else 0, 0, !p.actions.rearm⟩, some true, some f⟩ := by
  simp [applyQ, h, hc]

theorem applyQ_false {p : Program} {i : TrigInst} (h : i.fired = false) (window : Nat) (f : Firing) :
    applyQ p i (some false) window f = ⟨{ i with counter := p.preset, window := window }, some false, none⟩ := by
  simp [applyQ, h]

theorem applyQ_unknown {p : Program} {i : TrigInst} (h : i.fired = false) (window : Nat) (f : Firing) :
    applyQ p i none window f = ⟨{ i with window := window }, none, none⟩ := by
  simp [applyQ, h]

/-- Settles O41, case by case of the record's state and q. -/
theorem countingAndFiring : Obligations.CountingAndFiring := by
  refine fun p i window f => ⟨fun hf q => applyQ_of_fired hf q window f, fun hf =>
    ⟨fun hc => applyQ_counts hf hc window f, fun hc hrearm => ?_, fun hc hrearm => ?_, applyQ_false hf window f,
      applyQ_unknown hf window f⟩⟩
  · rw [applyQ_fires hf hc, hrearm]
    rfl
  · rw [applyQ_fires hf hc, hrearm]
    rfl

/-! ## The two results (R49) -/

theorem orResult_iff (a b : Option Bool) : (orResult a b = some true ↔ a = some true ∨ b = some true)
    ∧ (orResult a b = some false ↔ a = some false ∧ b = some false) := by
  rcases a with _ | _ | _ <;> rcases b with _ | _ | _ <;> decide

theorem andResult_iff (a b : Option Bool) : (andResult a b = some true ↔ a = some true ∧ b = some true)
    ∧ (andResult a b = some false ↔ a = some false ∨ b = some false) := by
  rcases a with _ | _ | _ <;> rcases b with _ | _ | _ <;> decide

/-! ## The window (R50) -/

theorem qualify_disarmed (w : Nat) (a b : Option Bool) :
    qualify .aThenB w 0 a b = (some false, if a = some true then w else 0) := rfl

theorem qualify_armed {window : Nat} (h : 0 < window) (w : Nat) (a b : Option Bool) :
    qualify .aThenB w window a b = if b = some true then (some true, window) else (b, window - 1) :=
  if_neg (Nat.ne_of_gt h)

/-! ## Comparators (R48) -/

/-- Masking the number of a set of flags masks the set. -/
theorem maskedBy_toNat (mask f : LaneFlags) : maskedBy mask (f.toNat : Int) = ((f &&& mask).toNat : Int) := by
  rw [maskedBy, BitVec.ofInt_natCast, BitVec.ofNat_toNat, BitVec.setWidth_eq]
  rfl

theorem compare_of_ne_status {c : Comparator} (h : c.field ≠ .status) (v : Int) :
    compare c (some v) = some (c.relation.holds v c.value) := by
  rw [compare, Option.map_some, if_neg h]

theorem compare_of_status {c : Comparator} (h : c.field = .status) {f held : LaneFlags} (hv : c.value = held.toNat) :
    compare c (some (f.toNat : Int))
      = some (c.relation.holds ((f &&& c.mask).toNat : Int) ((held &&& c.mask).toNat : Int)) := by
  rw [compare, Option.map_some, if_pos h, hv, maskedBy_toNat, maskedBy_toNat]

/-! ## Field values (R30, R46, R47) -/

theorem referenceSpeed_eq (traffic : List TrafficRec) (g : Nat) : referenceSpeed traffic g
    = (traffic.drop (g + 1)).findSome? (fun r => if r.absent then none else r.aggSpeed) := by
  rw [referenceSpeed, List.head?_filterMap]

theorem reportedSpeed_none {r : TrafficRec} :
    (if r.absent then none else r.aggSpeed) = none ↔ r.absent = true ∨ r.aggSpeed = none := by
  cases r.absent <;> simp

theorem State.trafficAt_eq {s : State} {g : Nat} {r : TrafficRec} (h : s.traffic[g]? = some r) : s.trafficAt g = r := by
  rw [State.trafficAt, List.getD_eq_getElem?_getD, h, Option.getD_some]

/-- The reference gantry is the nearest downstream that is not absent and has an aggregate speed (R47). -/
theorem State.referenceSpeed_nearest {s : State} {g h v : Nat} {r : TrafficRec} (hgh : g < h) (hr : s.traffic[h]? = some r)
    (hpresent : r.absent = false) (hv : r.aggSpeed = some v)
    (hbetween : ∀ m, g < m → m < h → (s.trafficAt m).absent = true ∨ (s.trafficAt m).aggSpeed = none) :
    referenceSpeed s.traffic g = some v := by
  have hh : h < s.traffic.length := (List.getElem?_eq_some_iff.1 hr).1
  have hat : (s.traffic.drop (g + 1))[h - (g + 1)]? = some r := by
    rw [List.getElem?_drop, show g + 1 + (h - (g + 1)) = h by omega, hr]
  obtain ⟨hlt, hget⟩ := List.getElem?_eq_some_iff.1 hat
  rw [referenceSpeed_eq, List.findSome?_eq_some_iff]
  refine ⟨(s.traffic.drop (g + 1)).take (h - (g + 1)), r, (s.traffic.drop (g + 1)).drop (h - (g + 1) + 1), ?_, ?_, ?_⟩
  · rw [← hget, ← List.drop_eq_getElem_cons hlt, List.take_append_drop]
  · simp [hpresent, hv]
  · intro x hx
    obtain ⟨j, hj, hjx⟩ := List.mem_take_iff_getElem.1 hx
    have hm : s.traffic[g + 1 + j]? = some x := by
      rw [← List.getElem?_drop, List.getElem?_eq_some_iff]
      exact ⟨_, hjx⟩
    rw [reportedSpeed_none, ← State.trafficAt_eq hm]
    exact hbetween _ (by omega) (by omega)

theorem State.referenceSpeed_none {s : State} {g : Nat}
    (h : ∀ m r, g < m → s.traffic[m]? = some r → r.absent = true ∨ r.aggSpeed = none) :
    referenceSpeed s.traffic g = none := by
  rw [referenceSpeed_eq, List.findSome?_eq_none_iff]
  intro x hx
  obtain ⟨j, hj⟩ := List.getElem?_of_mem hx
  rw [List.getElem?_drop] at hj
  exact reportedSpeed_none.2 (h _ x (by omega) hj)

/-- DSPEED is known where both speeds are (R47). -/
theorem State.fieldValue_dspeed_some {s : State} {g v w : Nat} (source : Source) (hv : (s.trafficAt g).aggSpeed = some v)
    (hw : referenceSpeed s.traffic g = some w) : s.fieldValue source g .dspeed = some ((v : Int) - (w : Int)) := by
  simp only [State.fieldValue, hv, hw]

theorem State.fieldValue_dspeed_none {s : State} {g : Nat} (source : Source)
    (h : (s.trafficAt g).aggSpeed = none ∨ referenceSpeed s.traffic g = none) : s.fieldValue source g .dspeed = none := by
  rcases h with h | h
  · simp only [State.fieldValue, h]
  · cases hv : (s.trafficAt g).aggSpeed <;> simp only [State.fieldValue, h, hv]

/-- A lane item: what its record holds, speed and occupancy only where it is present (R46). -/
theorem State.fieldValue_lane {s : State} {g l : Nat} {x : LaneTraffic} (h : (s.trafficAt g).lanes[l - 1]? = some x) :
    s.fieldValue (.lane l) g .speed = (if x.present = true then x.speed.map (fun v => Int.ofNat (v / 16)) else none)
    ∧ s.fieldValue (.lane l) g .occ = (if x.present = true then x.occ.map (fun v => Int.ofNat (v / 16)) else none)
    ∧ s.fieldValue (.lane l) g .count = x.count.map Int.ofNat
    ∧ s.fieldValue (.lane l) g .status = x.flags.map (fun f => Int.ofNat f.toNat) := by
  simp only [State.fieldValue, List.getD_eq_getElem?_getD, h, Option.getD_some, wholeUnits, and_self]

/-- A lane above N has no item. -/
theorem State.fieldValue_noLane {s : State} {g l : Nat} (h : (s.trafficAt g).lanes[l - 1]? = none) {f : TrigField}
    (hband : f ≠ .band) (hdspeed : f ≠ .dspeed) : s.fieldValue (.lane l) g f = none := by
  cases f with
  | band => exact absurd rfl hband
  | dspeed => exact absurd rfl hdspeed
  | speed | occ | count | status =>
    simp only [State.fieldValue, List.getD_eq_getElem?_getD, h, Option.getD_none]
    rfl

/-- Settles O40: the tables of R49 and R50, a comparator's result, the field values, and the evaluation made of them. -/
theorem qualifyingOutcomeFollowsTheTables : Obligations.QualifyingOutcomeFollowsTheTables := by
  refine ⟨fun w window a b => ⟨rfl, (orResult_iff a b).1, (orResult_iff a b).2, (andResult_iff a b).1,
    (andResult_iff a b).2, rfl, rfl, ?_, fun harmed => ⟨?_, ?_, ?_⟩⟩, fun c => ?_, fun s g source => ?_,
    fun s p i => ?_⟩
  · rintro rfl
    exact qualify_disarmed w a b
  · rintro rfl
    exact qualify_armed harmed w a _
  · rintro rfl
    exact qualify_armed harmed w a _
  · rintro rfl
    exact qualify_armed harmed w a _
  · exact ⟨rfl, fun hfield v => compare_of_ne_status hfield v,
      fun hfield f held hvalue => compare_of_status hfield hvalue⟩
  · exact ⟨rfl, rfl, rfl, rfl, rfl, fun l x _ hx => State.fieldValue_lane hx,
      fun l f _ hnone hband hdspeed => State.fieldValue_noLane hnone hband hdspeed,
      fun h r v w hgh hr hpresent hw hbetween hv =>
        State.fieldValue_dspeed_some source hv (State.referenceSpeed_nearest hgh hr hpresent hw hbetween),
      fun hunknown => State.fieldValue_dspeed_none source (hunknown.imp id State.referenceSpeed_none)⟩
  · rfl

end Sys2Proof.Machine
end

section
/-! TRIGGER_ENABLE and TRIGGER_REARM (R42, R44, R53): the working records they make and return. -/

namespace Sys2Proof.Machine

open Sys2Proof

/-! ## TRIGGER_ENABLE (R42, R44) -/

theorem triggerEnable_above {n : Byte} {s : State} (h : 7 < n.toNat) : triggerEnableEffect [n] s = badValue 1 s := if_pos h

theorem triggerEnable_unset {n : Byte} {s : State} (h : n.toNat ≤ 7) (hp : (s.slot n.toNat).fields = none) :
    triggerEnableEffect [n] s = refuse .wrongState s := by
  simp [triggerEnableEffect, u8At, Nat.not_lt.2 h, hp]

theorem triggerEnable_enabled {n : Byte} {s : State} {p : Program} (h : n.toNat ≤ 7) (hp : (s.slot n.toNat).fields = some p)
    (hon : (s.slot n.toNat).enabled = true) : triggerEnableEffect [n] s = accept [0] s := by
  simp [triggerEnableEffect, u8At, Nat.not_lt.2 h, hp, hon, enc8]

theorem triggerEnable_stopped {n : Byte} {s : State} {p : Program} (h : n.toNat ≤ 7) (hp : (s.slot n.toNat).fields = some p)
    (hoff : (s.slot n.toNat).enabled = false) (hs : s.operating = .stopped) :
    triggerEnableEffect [n] s = accept [0] (s.setSlot n.toNat ⟨some p, true⟩) := by
  simp [triggerEnableEffect, u8At, Nat.not_lt.2 h, hp, hoff, hs, enc8]

theorem triggerEnable_running {n : Byte} {s : State} {p : Program} (h : n.toNat ≤ 7) (hp : (s.slot n.toNat).fields = some p)
    (hoff : (s.slot n.toNat).enabled = false) (hr : s.operating = .running) :
    triggerEnableEffect [n] s = accept [byteOf (newInsts s.params.gantryCount n.toNat p).length]
      { s.setSlot n.toNat ⟨some p, true⟩ with insts := s.insts ++ newInsts s.params.gantryCount n.toNat p } := by
  simp [triggerEnableEffect, u8At, Nat.not_lt.2 h, hp, hoff, hr, enc8, State.setSlot]

/-- One working record as created stands at every gantry of the span below G (R44). -/
theorem newInsts_gantries (gantryCount p : Nat) (prog : Program) : (newInsts gantryCount p prog).map (·.gantry)
    = (List.range gantryCount).filter (fun g => decide (prog.first ≤ g ∧ g ≤ prog.last)) := by
  rw [newInsts, List.map_map]
  exact List.map_id _

/-- Settles O36, by the cases of TRIGGER_ENABLE's effect. -/
theorem triggerEnableCreatesWorkingRecords : Obligations.TriggerEnableCreatesWorkingRecords := by
  refine fun s tag n hr => ⟨fun h => ?_, fun h hp => ?_, fun p h hp =>
    ⟨fun hon => ?_, fun hoff hs => ?_, fun hoff hrun => ?_⟩⟩
  · exact OnlyAnswers.of_effect (k := .triggerEnable) hr (by simp) rfl (by simp) (triggerEnable_above (s := s.heard) h)
  · exact OnlyAnswers.of_effect (k := .triggerEnable) (items := [0x03]) hr (by simp) rfl (by simp)
      (triggerEnable_unset (s := s.heard) h hp)
  · exact OnlyAnswers.of_effect (k := .triggerEnable) hr (by simp) rfl (by simp)
      (triggerEnable_enabled (s := s.heard) h hp hon)
  · exact Acts.of_effect (k := .triggerEnable) (rs := []) hr (by simp) rfl (by simp)
      (triggerEnable_stopped (s := s.heard) h hp hoff hs) rfl hr.1 rfl
  · refine ⟨newInsts s.params.gantryCount n.toNat p, Acts.of_effect (k := .triggerEnable) (rs := []) hr (by simp) rfl
      (by simp) (triggerEnable_running (s := s.heard) h hp hoff hrun) rfl hr.1 rfl, newInsts_gantries _ _ _, fun m hm => ?_⟩
    obtain ⟨hprogram, -, -, -, hcounter, hwindow, hfired⟩ := mem_newInsts.1 hm
    exact ⟨hprogram, hcounter, hwindow, hfired⟩

/-! ## TRIGGER_REARM (R53) -/

theorem triggerRearm_above {n : Byte} {s : State} (h : 7 < n.toNat) : triggerRearmEffect [n] s = badValue 1 s := if_pos h

theorem triggerRearm_known {n : Byte} {s : State} (h : n.toNat ≤ 7) : triggerRearmEffect [n] s
    = accept [byteOf (firedInsts s n.toNat).length]
        { s with insts := s.insts.map (rearmInst n.toNat (s.presetOf n.toNat)) } := if_neg (Nat.not_lt.2 h)

theorem State.presetOf_set {s : State} {n : Nat} {p : Program} (h : (s.slot n).fields = some p) :
    s.presetOf n = p.preset := by
  rw [State.presetOf, h]

/-- Of a program with nothing FIRED no record changes, whatever the preset. -/
theorem rearm_none_fired {s : State} {n : Nat} (h : ∀ i ∈ s.insts, i.program = n → i.fired = false) (preset : Nat) :
    firedInsts s n = [] ∧ s.insts.map (rearmInst n preset) = s.insts := by
  constructor
  · rw [firedInsts, List.filter_eq_nil_iff]
    intro i hi hfired
    simp only [Bool.and_eq_true, beq_iff_eq] at hfired
    rw [h i hi hfired.1] at hfired
    exact Bool.false_ne_true hfired.2
  · refine (List.map_congr_left fun i hi => ?_).trans (List.map_id _)
    refine if_neg fun ⟨hprogram, hfired⟩ => ?_
    rw [h i hi hprogram] at hfired
    exact Bool.false_ne_true hfired

/-- Settles O38: the FIRED records are those `rearmInst` returns to IDLE, and the program's preset is read from its fields. -/
theorem triggerRearmReturnsFiredToIdle : Obligations.TriggerRearmReturnsFiredToIdle := by
  refine fun s tag n hr => ⟨fun h => ?_, fun h p hp => ?_, fun h hnone => ?_⟩
  · exact OnlyAnswers.of_effect (k := .triggerRearm) hr (by simp) rfl (by simp) (triggerRearm_above (s := s.heard) h)
  · have heffect := triggerRearm_known (s := s.heard) h
    rw [State.presetOf_set (s := s.heard) hp] at heffect
    exact Acts.of_effect (k := .triggerRearm) (rs := []) hr (by simp) rfl (by simp) heffect rfl hr.1 rfl
  · have heffect := triggerRearm_known (s := s.heard) h
    obtain ⟨hcount, hstand⟩ := rearm_none_fired (s := s.heard) hnone (s.heard.presetOf n.toNat)
    rw [hcount, hstand] at heffect
    exact OnlyAnswers.of_effect (k := .triggerRearm) hr (by simp) rfl (by simp) heffect

end Sys2Proof.Machine
end

section
/-! TRIGGER_SET (R41, R176): the program a body spells is read back, and of a body out of range the first such field is
named. -/

namespace Sys2Proof.Machine

open Sys2Proof

/-! ## Codes and their ranges (10.5) -/

theorem trigFieldOf_isSome : ∀ v : Nat, (trigFieldOf v).isSome = decide (v ≤ 5)
  | 0 | 1 | 2 | 3 | 4 | 5 => rfl
  | v + 6 => by simp [trigFieldOf]

theorem trigFieldOf_status : ∀ v : Nat, trigFieldOf v = some .status ↔ v = 5
  | 0 | 1 | 2 | 3 | 4 | 5 => by simp [trigFieldOf]
  | v + 6 => by simp [trigFieldOf]

theorem relationOf_isSome : ∀ v : Nat, (relationOf v).isSome = decide (v ≤ 3)
  | 0 | 1 | 2 | 3 => rfl
  | v + 4 => by simp [relationOf]

theorem trigModeOf_isSome : ∀ v : Nat, (trigModeOf v).isSome = decide (v ≤ 3)
  | 0 | 1 | 2 | 3 => rfl
  | v + 4 => by simp [trigModeOf]

theorem trigModeOf_aThenB : ∀ v : Nat, trigModeOf v = some .aThenB ↔ v = 3
  | 0 | 1 | 2 | 3 => by simp [trigModeOf]
  | v + 4 => by simp [trigModeOf]

theorem sourceOf_isSome (v : Nat) : (sourceOf v).isSome = decide (v ≤ 5) := by
  unfold sourceOf
  by_cases h0 : v = 0
  · simp [h0]
  · by_cases h5 : v ≤ 5 <;> simp [h0, h5]

/-- No bit above 3, and one of the three that act (R176). -/
theorem actionsLegal_eq (b : Byte) :
    actionsLegal b = (decide (b.toNat ≤ 15) && (b.getLsbD 0 || b.getLsbD 1 || b.getLsbD 2)) := by
  have acts : b &&& 0x07 = 0 ↔ b.getLsbD 0 = false ∧ b.getLsbD 1 = false ∧ b.getLsbD 2 = false := by
    constructor
    · intro h
      have bit : ∀ i, (b &&& 0x07).getLsbD i = (0 : Byte).getLsbD i := fun i => by rw [h]
      exact ⟨by simpa using bit 0, by simpa using bit 1, by simpa using bit 2⟩
    · rintro ⟨h0, h1, h2⟩
      have mask : ∀ i < 8, (0x07 : Byte).getLsbD i = decide (i < 3) := by decide
      refine BitVec.eq_of_getLsbD_eq fun i hi => ?_
      rw [BitVec.getLsbD_and, mask i hi, show (0 : Byte).getLsbD i = false from BitVec.getLsbD_zero]
      by_cases hlow : i < 3
      · obtain rfl | rfl | rfl : i = 0 ∨ i = 1 ∨ i = 2 := by omega
        · rw [h0, Bool.false_and]
        · rw [h1, Bool.false_and]
        · rw [h2, Bool.false_and]
      · rw [decide_eq_false hlow, Bool.and_false]
  unfold actionsLegal
  rw [Bool.eq_iff_iff]
  simp only [Bool.and_eq_true, Bool.or_eq_true, decide_eq_true_eq, ne_eq, acts, Nat.lt_succ_iff,
    Classical.not_and_iff_not_or_not, Bool.not_eq_false, or_assoc]

theorem actionsOf_spelled (w r f m : Bool) :
    actionsOf ((if w then 1 else 0) ||| (if r then 2 else 0) ||| (if f then 4 else 0) ||| (if m then 8 else 0))
        = ⟨w, r, f, m⟩
      ∧ actionsLegal ((if w then 1 else 0) ||| (if r then 2 else 0) ||| (if f then 4 else 0) ||| (if m then 8 else 0))
        = (w || r || f) := by
  decide +revert

/-! ## Signed values (chapter 10) -/

/-- A signed item is read back. -/
theorem s16At_encS16 {v : Int} (hlow : -32768 ≤ v) (hhigh : v ≤ 32767) (rest : Bytes) : s16At (encS16 v ++ rest) 0 = v := by
  have word : u16At (encS16 v ++ rest) 0 = (v % 65536).toNat := by
    change ((BitVec.ofInt 16 v >>> 8).setWidth 8).toNat * 256 + ((BitVec.ofInt 16 v).setWidth 8).toNat = _
    rw [BitVec.toNat_setWidth, BitVec.toNat_setWidth, BitVec.toNat_ushiftRight, BitVec.toNat_ofInt, Nat.shiftRight_eq_div_pow]
    omega
  unfold s16At
  rw [word]
  split <;> omega

theorem s16At_drop (b : Bytes) (o i : Nat) : s16At (b.drop o) i = s16At b (o + i) := by
  simp only [s16At, u16At, u8At_drop, Nat.add_assoc]

/-- Two's complement by the sign bit of the high byte. -/
theorem s16At_eq (b : Bytes) (o : Nat) : s16At b o
    = if u8At b o < 128 then (u8At b o * 256 + u8At b (o + 1) : Int)
      else (u8At b o * 256 + u8At b (o + 1) : Int) - 65536 := by
  have hbyte : u8At b (o + 1) < 256 := (b.getD (o + 1) 0).isLt
  unfold s16At u16At
  split <;> split <;> omega

/-! ## A comparator (10.3) -/

/-- A comparator read where it stands. -/
theorem comparator_of_drop {b rest : Bytes} {o : Nat} {c : Comparator} (h : b.drop o = comparatorBytes c ++ rest)
    (hc : ComparatorLegal c) (field : Nat) :
    comparatorAt b o = c ∧ ∀ f ∈ comparatorFields b o field, f.2 = true := by
  obtain ⟨kind, relation, value, mask⟩ := c
  have hlegal : if kind = .status then 0 ≤ value ∧ value ≤ 15 else -255 ≤ value ∧ value ≤ 1000 := hc
  have hcode : trigFieldOf (u8At b o) = some kind := by
    rw [show u8At b o = u8At (b.drop o) 0 from (u8At_drop b o 0).symm, h]
    cases kind <;> rfl
  have hrelation : relationOf (u8At b (o + 1)) = some relation := by
    rw [← u8At_drop, h]
    cases relation <;> rfl
  have hvalue : s16At b (o + 2) = value := by
    have hrange : -32768 ≤ value ∧ value ≤ 32767 := by
      split at hlegal <;> omega
    rw [← Nat.add_zero (o + 2), ← s16At_drop, ← List.drop_drop, h]
    exact s16At_encS16 hrange.1 hrange.2 (mask.setWidth 8 :: rest)
  have hmask : b.getD (o + 4) 0 = mask.setWidth 8 := by
    rw [List.getD_eq_getElem?_getD, ← List.getElem?_drop, h]
    rfl
  have hbound : u8At b (o + 4) ≤ 15 := by
    rw [u8At, hmask, BitVec.toNat_setWidth]
    have := mask.isLt
    omega
  have hflags : laneFlagsOf (mask.setWidth 8) = mask := by
    rw [laneFlagsOf, BitVec.setWidth_setWidth_of_le _ (by decide), BitVec.setWidth_eq]
  refine ⟨by rw [comparatorAt, hcode, hrelation, hvalue, hmask, hflags]; rfl, ?_⟩
  simp only [comparatorFields, hcode, hrelation, hvalue, within, List.forall_mem_cons, List.not_mem_nil, Option.isSome_some,
    Option.some.injEq, decide_eq_true_eq, false_implies, implies_true, and_true, true_and, Nat.zero_le, hbound]
  split at hlegal
  · rename_i hstatus
    rw [if_pos hstatus]
    exact decide_eq_true hlegal
  · rename_i hstatus
    rw [if_neg hstatus]
    exact decide_eq_true hlegal

/-! ## A program (10.3) -/

/-- What stands where in the body of a legal program. -/
structure SpelledAt (b : Bytes) (n : Byte) (p : Program) : Prop where
  number : u8At b 0 = n.toNat
  first : u8At b 1 = p.first
  last : u8At b 2 = p.last
  source : sourceOf (u8At b 3) = some p.source
  compA : ∃ rest, b.drop 4 = comparatorBytes p.compA ++ rest
  compB : ∃ rest, b.drop 9 = comparatorBytes p.compB ++ rest
  mode : trigModeOf (u8At b 14) = some p.mode
  window : p.mode = .aThenB → u8At b 15 = p.window
  preset : u8At b 16 = p.preset
  actions : actionsOf (b.getD 17 0) = p.actions
  legal : actionsLegal (b.getD 17 0) = true
  warning : p.actions.warn = true → u8At b 18 = p.warnCap ∧ u8At b 19 = p.warnHold

theorem spelledAt_programBody {n x y z : Byte} {p : Program} (h : ProgramLegal p) :
    SpelledAt (programBody n p x y z) n p := by
  obtain ⟨first, last, source, compA, compB, mode, window, preset, ⟨warn, report, freeze, rearm⟩, warnCap, warnHold⟩ := p
  obtain ⟨hspan, hlast, hsource, -, -, hwindow, hpreset, hacts, hwarn⟩ := h
  obtain ⟨hactions, hlegal⟩ := actionsOf_spelled warn report freeze rearm
  constructor
  case number => rfl
  case compA | compB => exact ⟨_, rfl⟩
  case first => exact byteOf_toNat (Nat.le_trans hspan (Nat.le_trans hlast (by decide)))
  case last => exact byteOf_toNat (Nat.le_trans hlast (by decide))
  case preset => exact byteOf_toNat (Nat.le_trans hpreset (by decide))
  case actions => exact hactions
  case legal => exact hlegal.trans (by simpa [or_assoc] using hacts)
  case mode => cases mode <;> rfl
  case source =>
    cases source with
    | aggregate => rfl
    | lane l =>
      change sourceOf (byteOf l).toNat = _
      rw [byteOf_toNat (by omega), sourceOf, if_neg (by omega), if_pos hsource.2]
  case window =>
    rintro rfl
    exact byteOf_toNat (Nat.le_trans hwindow.2 (by decide))
  case warning =>
    rintro rfl
    exact ⟨byteOf_toNat hwarn.1.2, byteOf_toNat (Nat.le_trans hwarn.2.2 (by decide))⟩

/-- A body that spells a legal program passes every check (R41). -/
theorem SpelledAt.fields_pass {b : Bytes} {n : Byte} {p : Program} (hb : SpelledAt b n p) (h : ProgramLegal p) :
    firstBad (triggerSetFields b) = none := by
  obtain ⟨-, hfirst, hlast, hsource, ⟨_, hA⟩, ⟨_, hB⟩, hmode, hwindow, hpreset, hactions, hacts, hwarning⟩ := hb
  obtain ⟨hspan, hend, -, hcompA, hcompB, hw, hp, -, hwarn⟩ := h
  rw [firstBad_eq_none]
  simp only [triggerSetFields, List.forall_mem_append, List.forall_mem_cons, List.not_mem_nil,
    false_implies, implies_true, and_true, true_and, eq_self, hfirst, hlast, hsource, hmode, hpreset, hactions, hacts,
    Option.isSome_some, within, decide_eq_true_eq, Nat.zero_le]
  refine ⟨⟨⟨⟨Nat.le_trans hspan hend, hspan, hend⟩, (comparator_of_drop hA hcompA 5).2⟩,
    (comparator_of_drop hB hcompB 9).2⟩, ?_, hp, ?_, ?_⟩
  · by_cases hm : p.mode = .aThenB
    · rw [if_pos hm] at hw
      simp [hwindow hm, hw]
    · simp [hm]
  · cases hon : p.actions.warn with
    | false => rfl
    | true =>
      rw [if_pos hon] at hwarn
      simp [hwarning hon, hwarn.1]
  · cases hon : p.actions.warn with
    | false => rfl
    | true =>
      rw [if_pos hon] at hwarn
      simp [hwarning hon, hwarn.2]

/-- The program of a body is the one it was written from. -/
theorem SpelledAt.programAt_eq {b : Bytes} {n : Byte} {p : Program} (hb : SpelledAt b n p) (h : ProgramLegal p) :
    programAt b = p := by
  obtain ⟨-, hfirst, hlast, hsource, ⟨_, hA⟩, ⟨_, hB⟩, hmode, hwindow, hpreset, hactions, -, hwarning⟩ := hb
  obtain ⟨-, -, -, hcompA, hcompB, hw, -, -, hwarn⟩ := h
  have window : (if p.mode = .aThenB then u8At b 15 else 0) = p.window := by
    split at hw
    · rename_i hm
      rw [if_pos hm, hwindow hm]
    · rename_i hm
      rw [if_neg hm, hw]
  have warning : (if p.actions.warn then u8At b 18 else 0) = p.warnCap
      ∧ (if p.actions.warn then u8At b 19 else 0) = p.warnHold := by
    split at hwarn
    · rename_i hon
      rw [if_pos hon, if_pos hon]
      exact hwarning hon
    · rename_i hon
      rw [if_neg hon, if_neg hon]
      exact ⟨hwarn.1.symm, hwarn.2.symm⟩
  simp only [programAt, hfirst, hlast, hsource, hmode, hpreset, hactions, (comparator_of_drop hA hcompA 5).1,
    (comparator_of_drop hB hcompB 9).1, Option.getD_some, window, warning]

/-! ## The checks as the fields stand in the body -/

theorem value_check (b : Bytes) (o : Nat) (low high : Int) : decide (low ≤ s16At b o ∧ s16At b o ≤ high)
    = (let v : Int := if u8At b o < 128 then u8At b o * 256 + u8At b (o + 1)
         else (u8At b o * 256 + u8At b (o + 1) : Int) - 65536
       decide (low ≤ v ∧ v ≤ high)) := by
  rw [s16At_eq]

theorem comparatorFields_eq (b : Bytes) (o field : Nat) : comparatorFields b o field =
    [(field, decide (u8At b o ≤ 5)), (field + 1, decide (u8At b (o + 1) ≤ 3)),
     (field + 2, if u8At b o = 5 then decide (0 ≤ s16At b (o + 2) ∧ s16At b (o + 2) ≤ 15)
       else decide (-255 ≤ s16At b (o + 2) ∧ s16At b (o + 2) ≤ 1000)),
     (field + 3, decide (u8At b (o + 4) ≤ 15))] := by
  simp only [comparatorFields, trigFieldOf_isSome, relationOf_isSome, trigFieldOf_status, within, Nat.zero_le, true_and]

theorem triggerSetFields_eq (b : Bytes) : triggerSetFields b =
    [(2, decide (u8At b 1 ≤ 31)), (3, decide (u8At b 1 ≤ u8At b 2 ∧ u8At b 2 ≤ 31)), (4, decide (u8At b 3 ≤ 5))]
    ++ comparatorFields b 4 5 ++ comparatorFields b 9 9
    ++ [(13, decide (u8At b 14 ≤ 3)), (14, decide (u8At b 14 ≠ 3 ∨ 1 ≤ u8At b 15 ∧ u8At b 15 ≤ 15)),
        (15, decide (u8At b 16 ≤ 31)),
        (16, decide (u8At b 17 ≤ 15)
          && ((b.getD 17 0).getLsbD 0 || (b.getD 17 0).getLsbD 1 || (b.getD 17 0).getLsbD 2)),
        (17, !(b.getD 17 0).getLsbD 0 || decide (1 ≤ u8At b 18)),
        (18, !(b.getD 17 0).getLsbD 0 || decide (1 ≤ u8At b 19 ∧ u8At b 19 ≤ 60))] := by
  have window : (trigModeOf (u8At b 14) != some .aThenB || within 1 15 (u8At b 15))
      = decide (u8At b 14 ≠ 3 ∨ 1 ≤ u8At b 15 ∧ u8At b 15 ≤ 15) := by
    rw [Bool.eq_iff_iff]
    simp only [Bool.or_eq_true, bne_iff_ne, ne_eq, trigModeOf_aThenB, within, decide_eq_true_eq]
  have cap : within 1 255 (u8At b 18) = decide (1 ≤ u8At b 18) := by
    have : u8At b 18 ≤ 255 := Nat.le_of_lt_succ (b.getD 18 0).isLt
    simp [within, this]
  rw [triggerSetFields, window, cap]
  simp only [sourceOf_isSome, trigModeOf_isSome, actionsLegal_eq, within, Nat.zero_le, true_and]
  rfl

/-! ## TRIGGER_SET (R41) -/

theorem triggerSet_above {b : Bytes} {s : State} (h : 7 < u8At b 0) : triggerSetEffect b s = badValue 1 s := if_pos h

theorem triggerSet_enabled {b : Bytes} {s : State} (h : u8At b 0 ≤ 7) (hon : (s.slot (u8At b 0)).enabled = true) :
    triggerSetEffect b s = refuse .wrongState s := by
  simp [triggerSetEffect, Nat.not_lt.2 h, hon]

theorem triggerSet_bad {b : Bytes} {s : State} {f : Nat} (h : u8At b 0 ≤ 7) (hoff : (s.slot (u8At b 0)).enabled = false)
    (hbad : firstBad (triggerSetFields b) = some f) : triggerSetEffect b s = badValue f s := by
  simp [triggerSetEffect, Nat.not_lt.2 h, hoff, hbad]

theorem triggerSet_writes {b : Bytes} {s : State} (h : u8At b 0 ≤ 7) (hoff : (s.slot (u8At b 0)).enabled = false)
    (hok : firstBad (triggerSetFields b) = none) :
    triggerSetEffect b s = accept [] (s.setSlot (u8At b 0) ⟨some (programAt b), false⟩) := by
  simp [triggerSetEffect, Nat.not_lt.2 h, hoff, hok]

/-- Settles O35: a legal program's body is read back, and of the others the first failing check is the model's. -/
theorem triggerSetWritesTheProgram : Obligations.TriggerSetWritesTheProgram := by
  refine fun s tag n hr => ⟨fun x y z p hp hn hoff => ?_, fun fields hlen => ?_⟩
  · have hspelled := spelledAt_programBody (n := n) (x := x) (y := y) (z := z) hp
    have hnumber := hspelled.number
    have heffect := triggerSet_writes (s := s.heard) (hnumber.symm ▸ hn) (hnumber.symm ▸ hoff) (hspelled.fields_pass hp)
    rw [hspelled.programAt_eq hp, hnumber] at heffect
    exact Acts.of_effect (k := .triggerSet) (rs := []) hr (show 20 ≤ 240 by decide) rfl (by simp) heffect rfl hr.1 rfl
  · have hlength : (n :: fields).length ≤ 240 := by simp [hlen]
    have hneeded : neededLength .triggerSet (n :: fields) = some (n :: fields).length := by simp [neededLength, hlen]
    refine ⟨fun h => ?_, fun h hon => ?_, fun h hoff => ?_⟩
    · exact OnlyAnswers.of_effect (k := .triggerSet) hr hlength hneeded (by simp) (triggerSet_above (s := s.heard) h)
    · exact OnlyAnswers.of_effect (k := .triggerSet) (items := [0x03]) hr hlength hneeded (by simp)
        (triggerSet_enabled (s := s.heard) h hon)
    · refine RefusesFirst.of_effect (k := .triggerSet) hr hlength hneeded fun f hf => triggerSet_bad (s := s.heard) h hoff ?_
      rw [triggerSetFields_eq, comparatorFields_eq, comparatorFields_eq, value_check, value_check, value_check, value_check]
      exact hf

end Sys2Proof.Machine
end

section
/-! The warning table under WARN, WARNING_CLEAR and TRIGGER_DISABLE (R43, R54, R56, R57, R60, R63). -/

namespace Sys2Proof.Machine

open Sys2Proof

/-! ## The table, one warning per gantry (R56) -/

/-- In a rising table a gantry has one warning. -/
theorem warning_unique {ws : List Warning} (h : (ws.map (·.gantry)).Pairwise (· < ·)) {v w : Warning} (hv : v ∈ ws)
    (hw : w ∈ ws) (he : v.gantry = w.gantry) : v = w := by
  induction ws with
  | nil => cases hv
  | cons x ws ih =>
    obtain ⟨hlow, hrest⟩ := List.pairwise_cons.1 (List.map_cons ▸ h)
    have below : ∀ u ∈ ws, x.gantry < u.gantry := fun u hu => hlow _ (List.mem_map_of_mem hu)
    rcases List.mem_cons.1 hv with hvx | hv' <;> rcases List.mem_cons.1 hw with hwx | hw'
    · rw [hvx, hwx]
    · exact absurd (hvx ▸ he) (Nat.ne_of_lt (below w hw'))
    · exact absurd (hwx ▸ he.symm) (Nat.ne_of_lt (below v hv'))
    · exact ih hrest hv' hw'

theorem warningAt_of_mem {ws : List Warning} (h : (ws.map (·.gantry)).Pairwise (· < ·)) {w : Warning} (hw : w ∈ ws) :
    warningAt ws w.gantry = some w := by
  cases hat : warningAt ws w.gantry with
  | none => exact absurd rfl (warningAt_none hat w hw)
  | some v =>
    obtain ⟨hv, hg⟩ := warningAt_some hat
    rw [warning_unique h hv hw hg]

theorem warningAt_eq_none {ws : List Warning} {g : Nat} (h : ∀ w ∈ ws, w.gantry ≠ g) : warningAt ws g = none := by
  simpa [warningAt, List.find?_eq_none] using h

theorem mem_putWarning_self {ws : List Warning} {v w : Warning} (hv : v ∈ ws) (hg : v.gantry = w.gantry) :
    w ∈ putWarning ws w :=
  List.mem_map.2 ⟨v, hv, if_pos hg⟩

/-- Replacing a gantry's warning touches no other's. -/
theorem mem_putWarning_other {ws : List Warning} {v w : Warning} (hg : v.gantry ≠ w.gantry) :
    v ∈ putWarning ws w ↔ v ∈ ws := by
  refine ⟨fun h => (mem_putWarning h).resolve_left fun he => hg (he ▸ rfl), fun h => List.mem_map.2 ⟨v, h, if_neg hg⟩⟩

theorem mem_insertWarning {ws : List Warning} {v w : Warning} : v ∈ insertWarning w ws ↔ v = w ∨ v ∈ ws :=
  (insertWarning_perm w ws).mem_iff.trans List.mem_cons

/-! ## Caps and holds of owners (R56, R57) -/

/-- An enabled owner gives the owners a smallest cap. -/
theorem State.some_ownersCap {s : State} {owners : List Nat} {p : Nat} (hp : p ∈ owners)
    (hen : (s.enabledProgram p).isSome = true) : some (s.ownersCap owners) = (owners.filterMap s.ownerCap).min? := by
  obtain ⟨prog, hprog⟩ := Option.isSome_iff_exists.1 hen
  have hmem : prog.warnCap ∈ owners.filterMap s.ownerCap :=
    List.mem_filterMap.2 ⟨p, hp, by rw [State.ownerCap, hprog, Option.map_some]⟩
  unfold State.ownersCap
  cases hmin : (owners.filterMap s.ownerCap).min? with
  | none => exact absurd (List.min?_eq_none_iff.1 hmin) (List.ne_nil_of_mem hmem)
  | some v => rfl

/-- An enabled owner gives the owners a largest hold. -/
theorem State.some_ownersHold {s : State} {owners : List Nat} {p : Nat} (hp : p ∈ owners)
    (hen : (s.enabledProgram p).isSome = true) : some (s.ownersHold owners) = (owners.filterMap s.ownerHold).max? := by
  obtain ⟨prog, hprog⟩ := Option.isSome_iff_exists.1 hen
  have hmem : prog.warnHold ∈ owners.filterMap s.ownerHold :=
    List.mem_filterMap.2 ⟨p, hp, by rw [State.ownerHold, hprog, Option.map_some]⟩
  unfold State.ownersHold
  cases hmax : (owners.filterMap s.ownerHold).max? with
  | none => exact absurd (List.max?_eq_none_iff.1 hmax) (List.ne_nil_of_mem hmem)
  | some v => rfl

theorem State.owners_single {s : State} {p : Nat} {prog : Program} (h : s.enabledProgram p = some prog) :
    s.ownersCap [p] = prog.warnCap ∧ s.ownersHold [p] = prog.warnHold := by
  simp [State.ownersCap, State.ownersHold, State.ownerCap, State.ownerHold, h]

/-! ## WARN (R54, R56, R57) -/

theorem State.placeWarning_merges {s : State} {g : Nat} {w : Warning} (h : warningAt s.warnings g = some w) (p : Nat) :
    s.placeWarning p g = ({ s with
      warnings := putWarning s.warnings
        { s.reown w (insertNumber p w.owners) with hold := s.ownersHold (insertNumber p w.owners) } }, .merged) := by
  simp only [State.placeWarning, h]

theorem State.placeWarning_places {s : State} {g : Nat} (h : warningAt s.warnings g = none) (hroom : s.warnings.length < 16)
    (p : Nat) : s.placeWarning p g = ({ s with
      warnings := insertWarning
        ⟨g, [p], s.ownersCap [p], roundInto s.displayable (s.ownersCap [p]), s.ownersHold [p], s.clock⟩ s.warnings },
      .placed) := by
  simp only [State.placeWarning, h]
  exact if_pos hroom

theorem State.placeWarning_full {s : State} {g : Nat} (h : warningAt s.warnings g = none) (hfull : 16 ≤ s.warnings.length)
    (p : Nat) : s.placeWarning p g = (s, .notPlaced) := by
  simp only [State.placeWarning, h]
  exact if_neg (Nat.not_lt.2 hfull)

/-- WARN writes the warning table alone, and there the warning of its gantry alone. -/
theorem State.placeWarning_frame (s : State) (p g : Nat) :
    (∀ w, w.gantry ≠ g → (w ∈ (s.placeWarning p g).1.warnings ↔ w ∈ s.warnings))
    ∧ { (s.placeWarning p g).1 with warnings := s.warnings } = s := by
  cases hat : warningAt s.warnings g with
  | some v =>
    rw [State.placeWarning_merges hat]
    refine ⟨fun w hw => mem_putWarning_other fun he => hw ?_, rfl⟩
    exact he.trans (warningAt_some hat).2
  | none =>
    by_cases hroom : s.warnings.length < 16
    · rw [State.placeWarning_places hat hroom]
      refine ⟨fun w hw => mem_insertWarning.trans (or_iff_right fun he => hw ?_), rfl⟩
      rw [he]
    · rw [State.placeWarning_full hat (Nat.not_lt.1 hroom)]
      exact ⟨fun w _ => Iff.rfl, rfl⟩

/-- Settles O42, by what stands at the gantry and the room in the table. -/
theorem warnPlacesMergesOrFails : Obligations.WarnPlacesMergesOrFails := by
  intro s p g prog hlegal hprog
  obtain ⟨hothers, hframe⟩ := s.placeWarning_frame p g
  have hen : (s.enabledProgram p).isSome = true := by rw [hprog]; rfl
  refine ⟨fun w hw hg => ?_, fun hnone hroom => ?_,
    fun hnone hfull => State.placeWarning_full (warningAt_eq_none hnone) hfull p, hothers, hframe⟩
  · have hat : warningAt s.warnings g = some w := hg ▸ warningAt_of_mem hlegal.2.1 hw
    have howner : p ∈ insertNumber p w.owners := mem_insertNumber.2 (.inl rfl)
    rw [State.placeWarning_merges hat]
    exact ⟨rfl, _, mem_putWarning_self hw rfl, hg, fun q => mem_insertNumber, State.some_ownersCap howner hen,
      State.some_ownersHold howner hen, rfl, rfl⟩
  · obtain ⟨hcap, hhold⟩ := State.owners_single hprog
    rw [State.placeWarning_places (warningAt_eq_none hnone) hroom, hcap, hhold]
    exact ⟨rfl, mem_insertWarning.2 (.inl rfl), (insertWarning_perm _ _).length_eq⟩

/-! ## What a moved warning sets off (R63, R66, R104, R110) -/

/-- The link port has no part in what a change of sources sets off. -/
theorem SourcesTaken.setLink {w u : State} {run : Prop} {ends : List Report} (h : SourcesTaken w u run ends) (l k : Link) :
    SourcesTaken { w with link := l } { u with link := k } run ends := by
  obtain ⟨hrun, hstill, haspects, hlines, hends⟩ := h
  exact ⟨hrun, hstill, haspects, hlines, hends⟩

/-- What a change of demand sets off, in either operating state. -/
theorem State.afterSources_outcome (s : State) : ∃ ends, (s.afterSources true).link = ends.foldl Link.place s.link
    ∧ (s.operating = .running → SourcesTaken s (s.afterSources true) True ends)
    ∧ (s.operating = .stopped → NothingSetOff s (s.afterSources true) ends) := by
  cases ho : s.operating with
  | running =>
    obtain ⟨ends, hlink, htaken⟩ := State.afterSources_taken s true ho
    rw [eq_self] at htaken
    exact ⟨ends, hlink, fun _ => htaken, fun h => nomatch h⟩
  | stopped =>
    rw [State.afterSources_stopped ho]
    exact ⟨[], rfl, fun h => (nomatch h), fun _ => ⟨rfl, rfl, rfl, rfl, rfl⟩⟩

/-! ## WARNING_CLEAR (R60) -/

theorem warningClear_outside {g : Byte} {s : State} (h : s.params.gantryCount ≤ g.toNat) :
    warningClearEffect [g] s = badValue 1 s := if_pos h

theorem warningClear_none {g : Byte} {s : State} (h : g.toNat < s.params.gantryCount)
    (hat : warningAt s.warnings g.toNat = none) : warningClearEffect [g] s = accept [0] s := by
  simp [warningClearEffect, u8At, Nat.not_le.2 h, hat, enc8]

theorem warningClear_ends {g : Byte} {s : State} {w : Warning} (h : g.toNat < s.params.gantryCount)
    (hat : warningAt s.warnings g.toNat = some w) :
    warningClearEffect [g] s = accept [1] ((s.endWarning w .cleared).afterSources true) := by
  simp [warningClearEffect, u8At, Nat.not_le.2 h, hat, enc8]

/-- Settles O39: the ending is reported, and then the change of demand is a change of sources. -/
theorem warningClearEndsTheWarning : Obligations.WarningClearEndsTheWarning := by
  refine fun s tag g hr => ⟨fun h => ?_, fun h hnone => ?_, fun h w hw hg hlegal => ?_⟩
  · exact OnlyAnswers.of_effect (k := .warningClear) hr (by simp) rfl (by simp) (warningClear_outside (s := s.heard) h)
  · exact OnlyAnswers.of_effect (k := .warningClear) hr (by simp) rfl (by simp)
      (warningClear_none (s := s.heard) h (warningAt_eq_none hnone))
  · have hat : warningAt s.warnings g.toNat = some w := hg ▸ warningAt_of_mem hlegal.2.1 hw
    have heffect := warningClear_ends (s := s.heard) h hat
    obtain ⟨ends, hlink, htaken, hnothing⟩ := (s.heard.endWarning w .cleared).afterSources_outcome
    have hframe := (s.heard.endWarning w .cleared).afterSources_frame true
    generalize (s.heard.endWarning w .cleared).afterSources true = t at *
    have hwarnings : t.warnings = s.warnings.filter (fun v => v.gantry != g.toNat) := by
      rw [← hg]
      exact (congrArg State.warnings hframe :)
    refine ⟨{ t with link := s.link }, ends, Acts.of_effect (k := .warningClear) hr (by simp) rfl (by simp) heffect hlink
      ((congrArg State.nrstLow hframe :).trans hr.1) rfl, hwarnings, fun hrun => ?_, hnothing, ?_⟩
    · have hmoved : t.warnings = (s.heard.endWarning w .cleared).warnings := (congrArg State.warnings hframe :)
      change SourcesTaken { s with warnings := t.warnings } _ True ends
      rw [hmoved]
      exact (htaken hrun).setLink s.link s.link
    · exact congrArg (fun x : State => { x with warnings := s.warnings, link := s.link }) hframe

/-! ## A warning that loses an owner (R43) -/

theorem State.disown_of_not_owner {s : State} {p : Nat} {w : Warning} (h : p ∉ w.owners) : s.disown p w = w := by
  simp [State.disown, h]

/-- The warning of a sole owner is left without. -/
theorem State.disown_alone {s : State} {p : Nat} {w : Warning} (h : w.owners.all (fun q => q == p) = true) :
    s.disown p w = { w with owners := [] } := by
  by_cases hp : p ∈ w.owners
  · have hnone : w.owners.filter (fun q => q != p) = [] := by
      simpa [List.filter_eq_nil_iff] using h
    simp [State.disown, hp, hnone]
  · have hnone : w.owners = [] := by
      refine List.eq_nil_iff_forall_not_mem.2 fun q hq => hp ?_
      obtain rfl : q = p := by simpa using List.all_eq_true.1 h q hq
      exact hq
    rw [State.disown_of_not_owner hp, ← hnone]

theorem State.disown_shared {s : State} {p : Nat} {w : Warning} (hp : p ∈ w.owners)
    (h : w.owners.filter (fun q => q != p) ≠ []) :
    s.disown p w = { s.reown w (w.owners.filter (fun q => q != p)) with
      hold := min w.hold (s.ownersHold (w.owners.filter (fun q => q != p))) } := by
  have hsome : (w.owners.filter (fun q => q != p)).isEmpty = false := by simpa [List.isEmpty_eq_false_iff] using h
  unfold State.disown
  rw [if_pos (List.contains_iff_mem.2 hp)]
  simp only [hsome]
  rfl

/-- A warning is left without owners exactly where the program owned it alone. -/
theorem State.disown_isEmpty (s : State) (p : Nat) (w : Warning) :
    (s.disown p w).owners.isEmpty = w.owners.all (fun q => q == p) := by
  rw [State.disown_owners, Bool.eq_iff_iff, List.isEmpty_iff, List.filter_eq_nil_iff, List.all_eq_true]
  simp

/-! ## The program disabled (R43) -/

theorem State.slot_lt_of_enabled {s : State} {p : Nat} (h : (s.slot p).enabled = true) : p < s.programs.length := by
  refine Nat.lt_of_not_le fun hp => ?_
  simp [State.slot, List.getD_eq_getElem?_getD, List.getElem?_eq_none hp] at h

theorem State.slot_disableProgram {s : State} {p : Nat} (h : (s.slot p).enabled = true) (q : Nat) :
    (s.disableProgram p).slot q = if q = p then ⟨(s.slot p).fields, false⟩ else s.slot q := by
  refine (State.slot_setSlot s p q _).trans ?_
  simp only [State.slot_lt_of_enabled h, and_true]

/-- The warnings that stand are those that keep an owner; the state after the disabling judges their caps. -/
theorem State.disableProgram_warnings (s : State) (p : Nat) : (s.disableProgram p).warnings
    = (s.warnings.map ((s.disableProgram p).disown p)).filter (fun w => !w.owners.isEmpty) := rfl

theorem State.mem_disableProgram_warnings {s : State} {p : Nat} {w : Warning} : w ∈ (s.disableProgram p).warnings
    ↔ (∃ v ∈ s.warnings, (s.disableProgram p).disown p v = w) ∧ w.owners ≠ [] := by
  rw [State.disableProgram_warnings, List.mem_filter, List.mem_map]
  simp

theorem State.disableProgram_owners (s : State) (p : Nat) :
    (s.disableProgram p).warnings.map (fun w => (w.gantry, w.owners))
      = (s.warnings.map (fun w => (w.gantry, w.owners.filter (fun q => q != p)))).filter (fun x => !x.2.isEmpty) := by
  have left : s.warnings.map (fun w => (w.gantry, w.owners.filter (fun q => q != p)))
      = (s.warnings.map ((s.disableProgram p).disown p)).map (fun w => (w.gantry, w.owners)) := by
    rw [List.map_map]
    refine List.map_congr_left fun w _ => ?_
    rw [Function.comp_apply, State.disown_gantry, State.disown_owners]
  rw [left, List.filter_map]
  rfl

/-- The reports of a disabling: the endings of the warnings the program owned alone. -/
theorem State.disableProgram_link (s : State) (p : Nat) : (s.disableProgram p).link
    = ((s.warnings.filter (fun w => w.owners.all (fun q => q == p))).map
        (fun w => Report.warningState s.clock (.ended .ownersDisabled) { w with owners := [] })).foldl Link.place s.link := by
  have reports : ((s.warnings.map ((s.disableProgram p).disown p)).filter (fun w => w.owners.isEmpty)).map
        (endReport s.clock .ownersDisabled)
      = (s.warnings.filter (fun w => w.owners.all (fun q => q == p))).map
        (fun w => Report.warningState s.clock (.ended .ownersDisabled) { w with owners := [] }) := by
    have alone : s.warnings.filter ((fun w => w.owners.isEmpty) ∘ (s.disableProgram p).disown p)
        = s.warnings.filter (fun w => w.owners.all (fun q => q == p)) :=
      List.filter_congr fun w _ => State.disown_isEmpty _ p w
    rw [List.filter_map, List.map_map, alone]
    refine List.map_congr_left fun w hw => ?_
    rw [Function.comp_apply, State.disown_alone (List.mem_filter.1 hw).2]
    rfl
  rw [← reports]
  rfl

/-- The warnings that are gone are those the program owned alone. -/
theorem State.disableProgram_ended (s : State) (p : Nat) : s.warnings.length - (s.disableProgram p).warnings.length
    = (s.warnings.filter (fun w => w.owners.all (fun q => q == p))).length := by
  have hstand : (s.disableProgram p).warnings.length
      = (s.warnings.filter (fun w => !w.owners.all (fun q => q == p))).length := by
    rw [State.disableProgram_warnings, List.filter_map, List.length_map]
    refine congrArg List.length (List.filter_congr fun w _ => ?_)
    rw [Function.comp_apply, State.disown_isEmpty]
  have hall := List.length_eq_countP_add_countP (fun w : Warning => w.owners.all (fun q => q == p)) (l := s.warnings)
  simp only [List.countP_eq_length_filter, decide_not, Bool.decide_eq_true] at hall
  omega

theorem State.owners_congr {s t : State} (h : t.programs = s.programs) :
    t.ownerCap = s.ownerCap ∧ t.ownerHold = s.ownerHold := by
  have hslot : t.slot = s.slot := funext fun p => by rw [State.slot, State.slot, h]
  have hen : t.enabledProgram = s.enabledProgram := funext fun p => by rw [State.enabledProgram, State.enabledProgram, hslot]
  exact ⟨funext fun p => by rw [State.ownerCap, State.ownerCap, hen],
    funext fun p => by rw [State.ownerHold, State.ownerHold, hen]⟩

/-- A warning that keeps owners is judged by theirs, its hold lowered to their largest (R43, R56). -/
theorem State.disableProgram_shared {s : State} (hlegal : WarningsLegal s) {p : Nat} {v w : Warning} (hv : v ∈ s.warnings)
    (hp : p ∈ v.owners) (hw : w ∈ (s.disableProgram p).warnings) (hg : w.gantry = v.gantry) :
    w.start = v.start ∧ some w.requestedCap = (w.owners.filterMap (s.disableProgram p).ownerCap).min?
      ∧ w.cap = roundInto s.displayable w.requestedCap
      ∧ ∃ largest, (w.owners.filterMap (s.disableProgram p).ownerHold).max? = some largest
        ∧ w.hold = min v.hold largest := by
  obtain ⟨hfrom, hne⟩ := State.mem_disableProgram_warnings.1 hw
  obtain ⟨v', hv', rfl⟩ := hfrom
  obtain rfl : v' = v := warning_unique hlegal.2.1 hv' hv ((State.disown_gantry _ _ _).symm.trans hg)
  rw [State.disown_owners] at hne
  obtain ⟨q, hq⟩ := List.exists_mem_of_ne_nil _ hne
  have hen : ((s.disableProgram p).enabledProgram q).isSome = true := by
    obtain ⟨howner, hqp⟩ := List.mem_filter.1 hq
    rw [State.enabledProgram_disableProgram (by simpa using hqp)]
    exact ((hlegal.2.2 v' hv').2.2 q howner).2
  rw [State.disown_shared hp hne]
  exact ⟨rfl, State.some_ownersCap hq hen, rfl, _, (State.some_ownersHold hq hen).symm, rfl⟩

/-! ## TRIGGER_DISABLE (R43, R63) -/

/-- What follows the disabling that left `d`: a change of sources, where the demands of the warnings of `s` have moved. -/
def State.disabledFrom (s d : State) : State :=
  if warningDemands d.warnings = warningDemands s.warnings then d else d.afterSources true

theorem triggerDisable_above {n : Byte} {s : State} (h : 7 < n.toNat) : triggerDisableEffect [n] s = badValue 1 s := if_pos h

theorem triggerDisable_disabled {n : Byte} {s : State} (h : n.toNat ≤ 7) (hoff : (s.slot n.toNat).enabled = false) :
    triggerDisableEffect [n] s = accept [0] s := by
  simp [triggerDisableEffect, u8At, Nat.not_lt.2 h, hoff, enc8]

theorem triggerDisable_enabled {n : Byte} {s : State} (h : n.toNat ≤ 7) (hon : (s.slot n.toNat).enabled = true) :
    triggerDisableEffect [n] s
      = accept [byteOf (s.warnings.filter (fun w => w.owners.all (fun q => q == n.toNat))).length]
        (s.disabledFrom (s.disableProgram n.toNat)) := by
  rw [← State.disableProgram_ended]
  simp [triggerDisableEffect, u8At, Nat.not_lt.2 h, hon, enc8, State.disabledFrom]

theorem State.disabledFrom_frame (s d : State) :
    { s.disabledFrom d with
      plan := d.plan, aspects := d.aspects, lines := d.lines, closures := d.closures, link := d.link } = d := by
  unfold State.disabledFrom
  split
  · rfl
  · exact d.afterSources_frame true

theorem State.disabledFrom_outcome (s d : State) : ∃ ends, (s.disabledFrom d).link = ends.foldl Link.place d.link
    ∧ (d.operating = .running → warningDemands d.warnings ≠ warningDemands s.warnings →
        SourcesTaken d (s.disabledFrom d) True ends)
    ∧ (d.operating = .stopped ∨ ¬ warningDemands d.warnings ≠ warningDemands s.warnings →
        NothingSetOff d (s.disabledFrom d) ends) := by
  unfold State.disabledFrom
  split
  · rename_i hsame
    exact ⟨[], rfl, fun _ hmoved => absurd hsame hmoved, fun _ => ⟨rfl, rfl, rfl, rfl, rfl⟩⟩
  · rename_i hmoved
    obtain ⟨ends, hlink, htaken, hnothing⟩ := d.afterSources_outcome
    exact ⟨ends, hlink, fun hrun _ => htaken hrun, fun h => hnothing (h.resolve_right (not_not_intro hmoved))⟩

/-- Settles O37: the table after the disabling, its reports, and then a change of sources where a demand has moved. -/
theorem triggerDisableLeavesTheWarnings : Obligations.TriggerDisableLeavesTheWarnings := by
  refine fun s tag n hr hlegal => ⟨fun h => ?_, fun h hoff => ?_, fun h hon => ?_⟩
  · exact OnlyAnswers.of_effect (k := .triggerDisable) hr (by simp) rfl (by simp) (triggerDisable_above (s := s.heard) h)
  · exact OnlyAnswers.of_effect (k := .triggerDisable) hr (by simp) rfl (by simp)
      (triggerDisable_disabled (s := s.heard) h hoff)
  have heffect := triggerDisable_enabled (s := s.heard) h hon
  obtain ⟨ends, hlink, htaken, hnothing⟩ := s.heard.disabledFrom_outcome (s.heard.disableProgram n.toNat)
  have hframe := s.heard.disabledFrom_frame (s.heard.disableProgram n.toNat)
  generalize s.heard.disabledFrom (s.heard.disableProgram n.toNat) = t at *
  have hprograms : t.programs = (s.heard.disableProgram n.toNat).programs := (congrArg State.programs hframe :)
  have hinsts : t.insts = (s.heard.disableProgram n.toNat).insts := (congrArg State.insts hframe :)
  have hwarnings : t.warnings = (s.heard.disableProgram n.toNat).warnings := (congrArg State.warnings hframe :)
  have hslot : ∀ q, t.slot q = if q = n.toNat then ⟨(s.slot n.toNat).fields, false⟩ else s.slot q := by
    intro q
    rw [State.slot, hprograms]
    exact State.slot_disableProgram (s := s.heard) hon q
  obtain ⟨hcaps, hholds⟩ := State.owners_congr hprograms
  have hreports := State.disableProgram_link s.heard n.toNat
  rw [hreports, ← List.foldl_append] at hlink
  refine ⟨{ t with link := s.link }, _, Acts.of_effect (k := .triggerDisable) hr (by simp) rfl (by simp) heffect hlink
    ((congrArg State.nrstLow hframe :).trans hr.1) rfl, (hslot _).trans (if_pos rfl), fun q hq => (hslot q).trans (if_neg hq),
    hinsts, ?_, fun w hw hnot => ?_, fun v hv hp w hw hg => ?_, ⟨ends, rfl, fun hrun hmoved => ?_, fun hstill => ?_⟩, ?_⟩
  · change t.warnings.map _ = _
    rw [hwarnings]
    exact State.disableProgram_owners s.heard n.toNat
  · change w ∈ t.warnings
    rw [hwarnings, State.mem_disableProgram_warnings]
    exact ⟨⟨w, hw, State.disown_of_not_owner hnot⟩, (hlegal.2.2 w hw).1⟩
  · change w ∈ t.warnings at hw
    rw [hwarnings] at hw
    change _ ∧ _ = (w.owners.filterMap t.ownerCap).min? ∧ _ ∧ ∃ largest, (w.owners.filterMap t.ownerHold).max? = _ ∧ _
    rw [hcaps, hholds]
    exact State.disableProgram_shared (s := s.heard) hlegal hv hp hw hg
  · change SourcesTaken { s with programs := t.programs, insts := t.insts, warnings := t.warnings } _ True ends
    rw [hprograms, hinsts, hwarnings]
    rw [hwarnings] at hmoved
    have hblocks : { s.heard.disableProgram n.toNat with link := s.link } = { s with
        programs := (s.heard.disableProgram n.toNat).programs
        insts := (s.heard.disableProgram n.toNat).insts
        warnings := (s.heard.disableProgram n.toNat).warnings } := rfl
    rw [← hblocks]
    exact (htaken hrun hmoved).setLink s.link s.link
  · rw [hwarnings] at hstill
    exact hnothing hstill
  · exact congrArg (fun x : State => { x with
      programs := s.programs, insts := s.insts, warnings := s.warnings, link := s.link }) hframe

end Sys2Proof.Machine
end

section
/-! The stages of a plan run (R73 to R77, R80): rounding and bounds, the candidate, the sweep upstream, and the record a run
leaves. -/

namespace Sys2Proof.Machine

open Sys2Proof

/-! ## Rounding and bounds (R73, R74) -/

/-- The largest member not above a value is the value rounded down. -/
theorem roundDown_eq {set : List Nat} {v b : Nat} (hb : b ∈ set) (hle : b ≤ v) (hmax : ∀ m ∈ set, m ≤ v → m ≤ b) :
    roundDown set v = some b := by
  refine List.max?_eq_some_iff.2 ⟨List.mem_filter.2 ⟨hb, decide_eq_true hle⟩, fun m hm => ?_⟩
  obtain ⟨hmem, hmv⟩ := List.mem_filter.1 hm
  exact hmax m hmem (of_decide_eq_true hmv)

/-- R73: a value with a member not above it is rounded to one. -/
theorem roundDown_of_le {set : List Nat} {v m : Nat} (hm : m ∈ set) (hle : m ≤ v) : ∃ b, roundDown set v = some b := by
  cases h : roundDown set v with
  | none => exact absurd (roundDown_none h m hm) (by omega)
  | some b => exact ⟨b, rfl⟩

/-- R73: below the smallest member nothing is rounded down. -/
theorem roundDown_eq_none {set : List Nat} {v : Nat} (h : ∀ m ∈ set, v < m) : roundDown set v = none := by
  cases hd : roundDown set v with
  | none => rfl
  | some b =>
    obtain ⟨hb, hle, -⟩ := roundDown_some hd
    exact absurd (h b hb) (by omega)

theorem roundInto_mem {set : List Nat} (hset : set ≠ []) (v : Nat) : roundInto set v ∈ set := by
  unfold roundInto
  cases h : roundDown set v with
  | none =>
    cases set with
    | nil => exact absurd rfl hset
    | cons x rest => exact List.mem_cons_self
  | some b => exact (roundDown_some h).1

/-- R73: a value with members not above it is rounded to the largest of them; a value below every member is clamped to the
first. -/
theorem rounding_spec (set : List Nat) (v : Nat) :
    (∀ m ∈ set, m ≤ v →
      (roundDown set v).isNone = false ∧ roundInto set v ∈ set ∧ m ≤ roundInto set v ∧ roundInto set v ≤ v)
    ∧ ((∀ m ∈ set, v < m) → (roundDown set v).isNone = true ∧ roundInto set v = set.headD 0) := by
  refine ⟨fun m hm hle => ?_, fun hbelow => ?_⟩
  · obtain ⟨b, hb⟩ := roundDown_of_le hm hle
    obtain ⟨hmem, hbv, hmax⟩ := roundDown_some hb
    rw [roundInto, hb]
    exact ⟨rfl, hmem, hmax m hm hle, hbv⟩
  · rw [roundInto, roundDown_eq_none hbelow]
    exact ⟨rfl, rfl⟩

theorem boundFrom_eq {set : List Nat} {maxDrop v b : Nat} (hb : b ∈ set) (hle : b ≤ v + maxDrop)
    (hmax : ∀ m ∈ set, m ≤ v + maxDrop → m ≤ b) : boundFrom set maxDrop v = b := by
  rw [boundFrom, roundDown_eq hb hle hmax, Option.getD_some]

/-- R74: no bound lies more than max_drop above the value it comes from. -/
theorem boundFrom_le (set : List Nat) (maxDrop v : Nat) : boundFrom set maxDrop v ≤ v + maxDrop := by
  unfold boundFrom
  cases h : roundDown set (v + maxDrop) with
  | none => exact Nat.le_add_right _ _
  | some b => exact (roundDown_some h).2.1

theorem boundFrom_mem {set : List Nat} {v : Nat} (hv : v ∈ set) (maxDrop : Nat) : boundFrom set maxDrop v ∈ set := by
  obtain ⟨b, hb⟩ := roundDown_of_le hv (Nat.le_add_right v maxDrop)
  rw [boundFrom, hb]
  exact (roundDown_some hb).1

/-! ## The candidate (R75) -/

/-- R75: the next member above a value, where there is a member above it. -/
theorem nextAbove_spec {set : List Nat} {v m : Nat} (hm : m ∈ set) (hlt : v < m) :
    nextAbove set v ∈ set ∧ v < nextAbove set v ∧ ∀ n ∈ set, v < n → nextAbove set v ≤ n := by
  have habove : m ∈ set.filter (fun n => decide (v < n)) := List.mem_filter.2 ⟨hm, decide_eq_true hlt⟩
  unfold nextAbove
  cases h : (set.filter (fun n => decide (v < n))).min? with
  | none =>
    rw [List.min?_eq_none_iff.1 h] at habove
    cases habove
  | some b =>
    obtain ⟨hb, hmin⟩ := List.min?_eq_some_iff.1 h
    obtain ⟨hmem, hvb⟩ := List.mem_filter.1 hb
    exact ⟨hmem, of_decide_eq_true hvb, fun n hn hvn => hmin n (List.mem_filter.2 ⟨hn, decide_eq_true hvn⟩)⟩

theorem candidate_fall (set : List Nat) (holdUp wait : Nat) (timed : Bool) {target shown : Nat} (h : target < shown) :
    candidate set holdUp timed target shown wait = (target, 0) := if_pos h

theorem candidate_level (set : List Nat) (holdUp shown wait : Nat) (timed : Bool) :
    candidate set holdUp timed shown shown wait = (shown, 0) := by
  rw [candidate, if_neg (Nat.lt_irrefl _), if_pos rfl]

/-- R75: an event run holds a shown limit below its target. -/
theorem candidate_event (set : List Nat) (holdUp wait : Nat) {target shown : Nat} (h : shown < target) :
    candidate set holdUp false target shown wait = (shown, wait) := by
  rw [candidate, if_neg (by omega), if_neg (by omega), if_neg Bool.false_ne_true]

/-- R75: a timed run short of hold_up only waits. -/
theorem candidate_waits (set : List Nat) {holdUp wait target shown : Nat} (h : shown < target) (hw : wait + 1 < holdUp) :
    candidate set holdUp true target shown wait = (shown, wait + 1) := by
  rw [candidate, if_neg (by omega), if_neg (by omega), if_pos rfl, if_neg (by omega)]

/-- R75: a timed run at hold_up raises to the next member. -/
theorem candidate_rises (set : List Nat) {holdUp wait target shown : Nat} (h : shown < target) (hw : holdUp ≤ wait + 1) :
    candidate set holdUp true target shown wait = (nextAbove set shown, holdUp) := by
  rw [candidate, if_neg (by omega), if_neg (by omega), if_pos rfl, if_pos (by omega)]

/-- R75: the value of a candidate is the target, which does not lie above the shown limit; or the shown limit, below the
target; or, in a timed run, the next member above the shown limit, which lies below the target. -/
theorem candidate_value (set : List Nat) (holdUp : Nat) (timed : Bool) (target shown wait : Nat) :
    ((candidate set holdUp timed target shown wait).1 = target ∧ target ≤ shown)
      ∨ (shown < target ∧ ((candidate set holdUp timed target shown wait).1 = shown
          ∨ timed = true ∧ (candidate set holdUp timed target shown wait).1 = nextAbove set shown)) := by
  rcases Nat.lt_trichotomy target shown with hlt | rfl | hlt
  · exact .inl ⟨by rw [candidate_fall _ _ _ _ hlt], Nat.le_of_lt hlt⟩
  · exact .inl ⟨by rw [candidate_level], Nat.le_refl _⟩
  · refine .inr ⟨hlt, ?_⟩
    cases timed with
    | false => exact .inl (by rw [candidate_event _ _ _ hlt])
    | true =>
      rcases Nat.lt_or_ge (wait + 1) holdUp with hw | hw
      · exact .inl (by rw [candidate_waits _ hlt hw])
      · exact .inr ⟨rfl, by rw [candidate_rises _ hlt hw]⟩

theorem candidate_mem {set : List Nat} {target shown : Nat} (ht : target ∈ set) (hs : shown ∈ set) (holdUp : Nat)
    (timed : Bool) (wait : Nat) : (candidate set holdUp timed target shown wait).1 ∈ set := by
  obtain ⟨h, -⟩ | ⟨hlt, h | ⟨-, h⟩⟩ := candidate_value set holdUp timed target shown wait
  · rwa [h]
  · rwa [h]
  · rw [h]
    exact (nextAbove_spec ht hlt).1

theorem candidate_le_target {set : List Nat} {target : Nat} (ht : target ∈ set) (holdUp : Nat) (timed : Bool)
    (shown wait : Nat) : (candidate set holdUp timed target shown wait).1 ≤ target := by
  obtain ⟨h, -⟩ | ⟨hlt, h | ⟨-, h⟩⟩ := candidate_value set holdUp timed target shown wait
  · exact Nat.le_of_eq h
  · omega
  · rw [h]
    exact (nextAbove_spec ht hlt).2.2 target ht hlt

/-- R75: a candidate lies above no member that lies above the shown limit. -/
theorem candidate_le_next {set : List Nat} {shown m : Nat} (hm : m ∈ set) (hlt : shown < m) (holdUp : Nat) (timed : Bool)
    (target wait : Nat) : (candidate set holdUp timed target shown wait).1 ≤ m := by
  obtain ⟨h, hle⟩ | ⟨-, h | ⟨-, h⟩⟩ := candidate_value set holdUp timed target shown wait
  · omega
  · omega
  · rw [h]
    exact (nextAbove_spec hm hlt).2.2 m hm hlt

theorem candidate_event_le (set : List Nat) (holdUp target shown wait : Nat) :
    (candidate set holdUp false target shown wait).1 ≤ shown := by
  obtain ⟨h, hle⟩ | ⟨-, h | ⟨hf, -⟩⟩ := candidate_value set holdUp false target shown wait
  · omega
  · omega
  · cases hf

theorem candidate_event_wait (set : List Nat) (holdUp target shown wait : Nat) :
    (candidate set holdUp false target shown wait).2 = wait ∨ (candidate set holdUp false target shown wait).2 = 0 := by
  rcases Nat.lt_or_ge shown target with h | h
  · exact .inl (by rw [candidate_event _ _ _ h])
  · exact .inr (by rw [candidate_of_le _ _ _ h])

/-! ## The sweep (R74, R77, R80) -/

/-- A gantry's own value, lowered to the bound of the nearest value downstream where there is one. -/
def lowerTo (set : List Nat) (maxDrop own : Nat) : Option Nat → Nat
  | none => own
  | some h => min own (boundFrom set maxDrop h)

/-- Every value of a sweep is the gantry's own, lowered by what the sweep has found downstream. -/
theorem sweepFrom_value (set : List Nat) (maxDrop : Nat) {gantries : List (Nat × Bool)} {k : Nat} {x : Nat × Bool}
    (hx : gantries[k]? = some x) : (sweepFrom set maxDrop gantries).1[k]?
      = some (lowerTo set maxDrop x.1 (sweepFrom set maxDrop (gantries.drop (k + 1))).2) := by
  induction gantries generalizing k with
  | nil => simp at hx
  | cons y rest ih =>
    cases k with
    | zero =>
      obtain rfl : y = x := by simpa using hx
      simp only [sweepFrom, List.getElem?_cons_zero, List.drop_succ_cons, List.drop_zero, Option.some.injEq]
      cases (sweepFrom set maxDrop rest).2 <;> rfl
    | succ k => simpa [sweepFrom] using ih (k := k) (by simpa using hx)

/-- The values of a sweep downstream of a place are the sweep of the gantries there. -/
theorem sweepFrom_drop (set : List Nat) (maxDrop : Nat) (gantries : List (Nat × Bool)) (k : Nat) :
    (sweepFrom set maxDrop gantries).1.drop k = (sweepFrom set maxDrop (gantries.drop k)).1 := by
  induction gantries generalizing k with
  | nil => simp [sweepFrom]
  | cons y rest ih =>
    cases k with
    | zero => rfl
    | succ k => simpa [sweepFrom] using ih k

/-- R80: dark gantries hand no value upstream. -/
theorem sweepFrom_dark (set : List Nat) (maxDrop : Nat) {gantries : List (Nat × Bool)} (h : ∀ x ∈ gantries, x.2 = true) :
    (sweepFrom set maxDrop gantries).2 = none := by
  induction gantries with
  | nil => rfl
  | cons y rest ih =>
    have hy : y.2 = true := h y List.mem_cons_self
    have hrest := ih fun x hx => h x (List.mem_cons_of_mem _ hx)
    simp only [sweepFrom, hy, if_true, hrest]

/-- R80: the first gantry that is not dark hands its value upstream. -/
theorem sweepFrom_signing (set : List Nat) (maxDrop : Nat) {gantries : List (Nat × Bool)} {k : Nat} {x : Nat × Bool}
    (hx : gantries[k]? = some x) (hsigns : x.2 = false) (hdark : ∀ m y, m < k → gantries[m]? = some y → y.2 = true) :
    (sweepFrom set maxDrop gantries).2 = (sweepFrom set maxDrop gantries).1[k]? := by
  induction gantries generalizing k with
  | nil => simp at hx
  | cons y rest ih =>
    cases k with
    | zero =>
      obtain rfl : y = x := by simpa using hx
      simp [sweepFrom, hsigns]
    | succ k =>
      have hy : y.2 = true := hdark 0 y (Nat.succ_pos k) rfl
      have hrest := ih (k := k) (by simpa using hx)
        fun m z hm hz => hdark (m + 1) z (Nat.succ_lt_succ hm) (by simpa using hz)
      simpa [sweepFrom, hy] using hrest

/-- A sweep over members of the set gives members of it. -/
theorem sweepFrom_mem {set : List Nat} (maxDrop : Nat) {gantries : List (Nat × Bool)} (h : ∀ x ∈ gantries, x.1 ∈ set) :
    (∀ v ∈ (sweepFrom set maxDrop gantries).1, v ∈ set)
      ∧ ∀ v, (sweepFrom set maxDrop gantries).2 = some v → v ∈ set := by
  induction gantries with
  | nil => exact ⟨by simp [sweepFrom], by simp [sweepFrom]⟩
  | cons y rest ih =>
    obtain ⟨hvalues, hnear⟩ := ih fun x hx => h x (List.mem_cons_of_mem _ hx)
    have hy : y.1 ∈ set := h y List.mem_cons_self
    have hvalue : lowerTo set maxDrop y.1 (sweepFrom set maxDrop rest).2 ∈ set := by
      cases hn : (sweepFrom set maxDrop rest).2 with
      | none => exact hy
      | some v =>
        rw [lowerTo]
        rcases Nat.le_total y.1 (boundFrom set maxDrop v) with hle | hle
        · rwa [Nat.min_eq_left hle]
        · rw [Nat.min_eq_right hle]
          exact boundFrom_mem (hnear v hn) maxDrop
    have hcons : sweepFrom set maxDrop (y :: rest)
        = (lowerTo set maxDrop y.1 (sweepFrom set maxDrop rest).2 :: (sweepFrom set maxDrop rest).1,
            if y.2 then (sweepFrom set maxDrop rest).2
            else some (lowerTo set maxDrop y.1 (sweepFrom set maxDrop rest).2)) := by
      simp only [sweepFrom]
      cases (sweepFrom set maxDrop rest).2 <;> rfl
    rw [hcons]
    refine ⟨fun v hv => ?_, fun v hv => ?_⟩
    · rcases List.mem_cons.1 hv with rfl | hv
      · exact hvalue
      · exact hvalues v hv
    · dsimp only at hv
      split at hv
      · exact hnear v hv
      · exact Option.some.inj hv ▸ hvalue

/-! ## The sweep of a corridor -/

section Corridor

variable (set : List Nat) (maxDrop n : Nat) (own : Nat → Nat) (dark : Nat → Bool)

/-- The gantries 0..n-1 with their own values and darkness, as the stages of a run sweep them. -/
def corridor : List (Nat × Bool) := (List.range n).map (fun g => (own g, dark g))

theorem corridor_at {g : Nat} (hg : g < n) : (corridor n own dark)[g]? = some (own g, dark g) := by
  simp [corridor, hg]

theorem corridor_drop_at {g m : Nat} (hg : g < m) (hm : m < n) :
    ((corridor n own dark).drop (g + 1))[m - (g + 1)]? = some (own m, dark m) := by
  rw [List.getElem?_drop, show g + 1 + (m - (g + 1)) = m by omega, corridor_at n own dark hm]

/-- Downstream of a gantry the corridor holds the gantries with a higher index. -/
theorem mem_corridor_drop {g : Nat} {x : Nat × Bool} (hx : x ∈ (corridor n own dark).drop (g + 1)) :
    ∃ m, g < m ∧ m < n ∧ x = (own m, dark m) := by
  obtain ⟨k, hk⟩ := List.mem_iff_getElem?.1 hx
  rw [List.getElem?_drop] at hk
  have hlt : g + 1 + k < n := by
    have := (List.getElem?_eq_some_iff.1 hk).1
    simpa [corridor] using this
  rw [corridor_at n own dark hlt] at hk
  exact ⟨g + 1 + k, by omega, hlt, (Option.some.inj hk).symm⟩

theorem sweep_value {g : Nat} (hg : g < n) : (sweep set maxDrop (corridor n own dark)).getD g 0
    = lowerTo set maxDrop (own g) (sweepFrom set maxDrop ((corridor n own dark).drop (g + 1))).2 := by
  rw [sweep, List.getD_eq_getElem?_getD, sweepFrom_value set maxDrop (corridor_at n own dark hg), Option.getD_some]

/-- R74: with no speed-signing gantry downstream a gantry's own value stands. -/
theorem sweep_last {g : Nat} (hg : g < n) (hdark : ∀ m, g < m → m < n → dark m = true) :
    (sweep set maxDrop (corridor n own dark)).getD g 0 = own g := by
  rw [sweep_value set maxDrop n own dark hg, sweepFrom_dark]
  · rfl
  · intro x hx
    obtain ⟨m, hgm, hmn, rfl⟩ := mem_corridor_drop n own dark hx
    exact hdark m hgm hmn

/-- R74, R80: a gantry takes its bound from the nearest speed-signing gantry downstream. -/
theorem sweep_next {g h : Nat} (hgh : g < h) (hh : h < n) (hsigns : dark h = false)
    (hdark : ∀ m, g < m → m < h → dark m = true) : (sweep set maxDrop (corridor n own dark)).getD g 0
      = min (own g) (boundFrom set maxDrop ((sweep set maxDrop (corridor n own dark)).getD h 0)) := by
  have hnear := sweepFrom_signing set maxDrop (corridor_drop_at n own dark hgh hh) hsigns fun m y hm hy => by
    have hlt : g + 1 + m < n := by omega
    rw [List.getElem?_drop, corridor_at n own dark hlt, Option.some.injEq] at hy
    exact hy ▸ hdark (g + 1 + m) (by omega) (by omega)
  rw [← sweepFrom_drop, List.getElem?_drop, show g + 1 + (h - (g + 1)) = h by omega,
    sweepFrom_value set maxDrop (corridor_at n own dark hh)] at hnear
  rw [sweep_value set maxDrop n own dark (Nat.lt_trans hgh hh), sweep_value set maxDrop n own dark hh, hnear]
  rfl

theorem sweep_le {g : Nat} (hg : g < n) : (sweep set maxDrop (corridor n own dark)).getD g 0 ≤ own g := by
  rw [sweep_value set maxDrop n own dark hg]
  cases (sweepFrom set maxDrop ((corridor n own dark).drop (g + 1))).2 with
  | none => exact Nat.le_refl _
  | some v => exact Nat.min_le_left _ _

theorem sweep_mem {g : Nat} (hg : g < n) (hown : ∀ m, m < n → own m ∈ set) :
    (sweep set maxDrop (corridor n own dark)).getD g 0 ∈ set := by
  have hall : ∀ x ∈ corridor n own dark, x.1 ∈ set := by
    intro x hx
    obtain ⟨m, hm, rfl⟩ := List.mem_map.1 hx
    exact hown m (List.mem_range.1 hm)
  have hvalue := sweepFrom_value set maxDrop (corridor_at n own dark hg)
  rw [sweep_value set maxDrop n own dark hg]
  exact (sweepFrom_mem maxDrop hall).1 _ (List.mem_of_getElem? hvalue)

end Corridor

/-! ## A run (R68) -/

/-- The rounded demand of a gantry (R71, R73). -/
def State.roundedDemand (s : State) (initial : Option Nat) (g : Nat) : Nat :=
  roundInto s.displayable (lowest (s.demandSources initial g))

/-- The candidate and the rise-wait of a gantry, from its target in the run (R75). -/
def State.ownCandidate (s : State) (timed : Bool) (initial : Option Nat) (g : Nat) : Nat × Nat :=
  candidate s.displayable s.params.holdUp timed ((s.targets initial).getD g 0) (s.planAt g).shown (s.planAt g).riseWait

/-- The shown limits of a whole run (R77). -/
def State.runShown (s : State) (timed : Bool) (initial : Option Nat) : List Nat :=
  s.shownLimits (s.candidates timed (s.targets initial))

theorem State.targets_eq (s : State) (initial : Option Nat) : s.targets initial
    = sweep s.displayable s.params.maxDrop (corridor s.params.gantryCount (s.roundedDemand initial) (darkAt s.panels)) := rfl

theorem State.runShown_eq (s : State) (timed : Bool) (initial : Option Nat) : s.runShown timed initial
    = sweep s.displayable s.params.maxDrop
        (corridor s.params.gantryCount (fun g => (s.ownCandidate timed initial g).1) (darkAt s.panels)) := by
  refine congrArg (sweep _ _) (List.map_congr_left fun g hg => ?_)
  rw [s.candidates_at timed (s.targets initial) (List.mem_range.1 hg)]
  rfl

/-- What a run leaves at a gantry, stage by stage. -/
theorem State.planRun_stages (s : State) (timed : Bool) (initial : Option Nat) {g : Nat} (hg : g < s.params.gantryCount) :
    (s.planRun timed initial)[g]?
      = some (finishRec s.displayable (s.planAt g) (s.demandSources initial g) ((s.targets initial).getD g 0)
          (s.ownCandidate timed initial g).2 ((s.runShown timed initial).getD g 0)) := by
  rw [s.planRun_at timed initial hg, s.candidates_at timed (s.targets initial) hg]
  rfl

theorem State.planRun_length (s : State) (timed : Bool) (initial : Option Nat) :
    (s.planRun timed initial).length = s.params.gantryCount := by
  simp [State.planRun]

theorem State.planRun_some {s : State} {timed : Bool} {initial : Option Nat} {g : Nat} {r : PlanRec}
    (h : (s.planRun timed initial)[g]? = some r) : g < s.params.gantryCount
      ∧ r = finishRec s.displayable (s.planAt g) (s.demandSources initial g) ((s.targets initial).getD g 0)
          (s.ownCandidate timed initial g).2 ((s.runShown timed initial).getD g 0) := by
  have hg := (List.getElem?_eq_some_iff.1 h).1
  rw [s.planRun_length] at hg
  exact ⟨hg, Option.some.inj (h.symm.trans (s.planRun_stages timed initial hg))⟩

end Sys2Proof.Machine
end

section
/-! Every run's targets and shown limits (R66, R74, R75, R77, R80). -/

namespace Sys2Proof.Machine

open Sys2Proof

/-! ## The nearest speed-signing gantry downstream (R74, R80) -/

/-- With no speed-signing gantry downstream, every gantry there is dark. -/
theorem dark_of_no_next {s : State} {g : Nat} (h : ∀ k, ¬ nextSigning s g k) {m : Nat} (hgm : g < m)
    (hm : m < s.params.gantryCount) : darkAt s.panels m = true := by
  induction m using Nat.strongRecOn with
  | ind m ih =>
    refine Decidable.byContradiction fun hsigns => h m ⟨hgm, hm, eq_false_of_ne_true hsigns, ?_⟩
    exact fun k hgk hkm => ih k hkm hgk (Nat.lt_trans hkm hm)

theorem State.targets_last {s : State} {g : Nat} (hg : g < s.params.gantryCount) (h : ∀ k, ¬ nextSigning s g k)
    (initial : Option Nat) : (s.targets initial).getD g 0 = s.roundedDemand initial g := by
  rw [s.targets_eq initial, sweep_last _ _ _ _ _ hg fun m => dark_of_no_next h]

theorem State.targets_next {s : State} {g h : Nat} (hn : nextSigning s g h) (initial : Option Nat) :
    (s.targets initial).getD g 0 = min (s.roundedDemand initial g)
      (boundFrom s.displayable s.params.maxDrop ((s.targets initial).getD h 0)) := by
  obtain ⟨hgh, hh, hsigns, hdark⟩ := hn
  rw [s.targets_eq initial, sweep_next _ _ _ _ _ hgh hh hsigns hdark]

theorem State.runShown_last {s : State} {g : Nat} (hg : g < s.params.gantryCount) (h : ∀ k, ¬ nextSigning s g k)
    (timed : Bool) (initial : Option Nat) :
    (s.runShown timed initial).getD g 0 = (s.ownCandidate timed initial g).1 := by
  rw [s.runShown_eq timed initial, sweep_last _ _ _ _ _ hg fun m => dark_of_no_next h]

theorem State.runShown_next {s : State} {g h : Nat} (hn : nextSigning s g h) (timed : Bool) (initial : Option Nat) :
    (s.runShown timed initial).getD g 0 = min (s.ownCandidate timed initial g).1
      (boundFrom s.displayable s.params.maxDrop ((s.runShown timed initial).getD h 0)) := by
  obtain ⟨hgh, hh, hsigns, hdark⟩ := hn
  rw [s.runShown_eq timed initial, sweep_next _ _ _ _ _ hgh hh hsigns hdark]

theorem State.runShown_le (s : State) (timed : Bool) (initial : Option Nat) {g : Nat} (hg : g < s.params.gantryCount) :
    (s.runShown timed initial).getD g 0 ≤ (s.ownCandidate timed initial g).1 := by
  rw [s.runShown_eq timed initial]
  exact sweep_le _ _ _ _ _ hg

/-- Settles O45: Stage 4 by the rows of `candidate`; Stages 3 and 5 by the sweeps, which only lower it. -/
theorem runsRaiseOneStepAndOnlyOnTime : Obligations.RunsRaiseOneStepAndOnlyOnTime := by
  refine ⟨fun set holdUp target shown wait timed => ⟨candidate_fall set holdUp wait timed, ?_, fun hlt =>
    ⟨candidate_event set holdUp wait hlt, candidate_waits set hlt, fun hw =>
      ⟨nextAbove set shown, candidate_rises set hlt hw, fun ht => ?_⟩⟩⟩, fun s initial timed g r hr => ?_⟩
  · rintro rfl
    exact candidate_level set holdUp target wait timed
  · obtain ⟨hmem, habove, hleast⟩ := nextAbove_spec ht hlt
    exact ⟨hmem, habove, hleast target ht hlt, hleast⟩
  · obtain ⟨hg, rfl⟩ := State.planRun_some hr
    have hle := s.runShown_le timed initial hg
    refine ⟨⟨fun hlast => ⟨State.targets_last hg hlast initial, State.runShown_last hg hlast timed initial⟩,
      fun h below hn hbelow => ?_, rfl⟩, fun htimed => ?_, fun m hm hlt => ?_, fun hne => if_neg hne,
      fun heq htimed => ?_⟩
    · obtain ⟨-, rfl⟩ := State.planRun_some hbelow
      refine ⟨fun b ⟨hb, hbound, hmax⟩ => ?_, fun b ⟨hb, hbound, hmax⟩ => ?_⟩
      · rw [← boundFrom_eq hb hbound hmax]
        exact State.targets_next hn initial
      · rw [← boundFrom_eq hb hbound hmax]
        exact State.runShown_next hn timed initial
    · subst htimed
      exact Nat.le_trans hle (candidate_event_le _ _ _ _ _)
    · exact Nat.le_trans hle (candidate_le_next hm hlt _ _ _ _)
    · subst htimed
      exact (candidate_event_wait _ _ _ _ _).imp (if_pos heq).trans (if_pos heq).trans

end Sys2Proof.Machine
end

section
/-! The demand of a gantry (R70 to R73): the sources that ask for a limit, the one that binds, and the rounding. -/

namespace Sys2Proof.Machine

open Sys2Proof

/-! ## Who asks for a limit (R70, R71) -/

def OperatorAsks (s : State) (v : Nat) : Prop := s.operatorCap ≠ 0 ∧ s.operatorCap = v

def ClosureAsks (s : State) (g : Nat) (c : Closure) (v : Nat) : Prop :=
  c ∈ s.closures ∧ c.state ≠ .releasing ∧ (g ∈ c.taper ∨ c.first ≤ g ∧ g ≤ c.last) ∧ c.requestedCap = v

def WarningAsks (s : State) (g v : Nat) : Prop := ∃ w, warningAt s.warnings g = some w ∧ w.requestedCap = v

def CongestionAsks (s : State) (g v : Nat) : Prop :=
  ∃ b, 0 < (s.trafficAt g).band ∧ (s.bands.getD [])[(s.trafficAt g).band - 1]? = some b ∧ b.limit = v

/-! ## The first source that asks for a value (R72) -/

/-- The first source of a list whose value this is. -/
def firstAsking (v : Nat) (sources : List (Binding × Nat)) : Option Binding :=
  (sources.find? (fun x => x.2 == v)).map Prod.fst

theorem firstAsking_append (v : Nat) (l k : List (Binding × Nat)) :
    firstAsking v (l ++ k) = (firstAsking v l).or (firstAsking v k) := by
  unfold firstAsking
  rw [List.find?_append]
  cases l.find? (fun x => x.2 == v) <;> rfl

theorem firstAsking_eq_none {v : Nat} {sources : List (Binding × Nat)} :
    firstAsking v sources = none ↔ ∀ b, (b, v) ∉ sources := by
  simp only [firstAsking, Option.map_eq_none_iff, List.find?_eq_none, beq_iff_eq]
  exact ⟨fun h b hb => h _ hb rfl, fun h x hx hv => h x.1 (hv ▸ hx)⟩

theorem firstAsking_mem {v : Nat} {sources : List (Binding × Nat)} {b : Binding} (h : firstAsking v sources = some b) :
    (b, v) ∈ sources := by
  obtain ⟨⟨b', v'⟩, hx, rfl⟩ := Option.map_eq_some_iff.1 h
  obtain rfl : v' = v := by simpa using List.find?_some hx
  exact List.mem_of_find?_eq_some hx

/-- The one binding that asks for the value is the first. -/
theorem firstAsking_eq_some {v : Nat} {sources : List (Binding × Nat)} {b : Binding} (h : (b, v) ∈ sources)
    (hone : ∀ c, (c, v) ∈ sources → c = b) : firstAsking v sources = some b := by
  cases hf : firstAsking v sources with
  | none => exact absurd h (firstAsking_eq_none.1 hf b)
  | some c => rw [hone c (firstAsking_mem hf)]

theorem bindingOf_eq (sources : List (Binding × Nat)) :
    bindingOf sources = (firstAsking (lowest sources) sources).getD .maximum := by
  unfold bindingOf firstAsking
  cases sources.find? (fun x => x.2 == lowest sources) <;> rfl

/-- The lowest value is that of a source. -/
theorem lowest_mem {sources : List (Binding × Nat)} (h : sources ≠ []) : ∃ b, (b, lowest sources) ∈ sources := by
  induction sources with
  | nil => exact absurd rfl h
  | cons x sources ih =>
    cases sources with
    | nil => exact ⟨x.1, List.mem_cons_self⟩
    | cons y rest =>
      obtain ⟨b, hb⟩ := ih (List.cons_ne_nil y rest)
      rw [lowest]
      rcases Nat.le_total x.2 (lowest (y :: rest)) with hle | hle
      · exact ⟨x.1, by rw [Nat.min_eq_left hle]; exact List.mem_cons_self⟩
      · exact ⟨b, by rw [Nat.min_eq_right hle]; exact List.mem_cons_of_mem _ hb⟩

theorem bindingOf_mem {sources : List (Binding × Nat)} (h : sources ≠ []) :
    (bindingOf sources, lowest sources) ∈ sources := by
  obtain ⟨b, hb⟩ := lowest_mem h
  rw [bindingOf_eq]
  cases hf : firstAsking (lowest sources) sources with
  | none => exact absurd hb (firstAsking_eq_none.1 hf b)
  | some c => exact firstAsking_mem hf

/-! ## The sources of a gantry, part by part -/

def State.operatorSources (s : State) : List (Binding × Nat) :=
  if s.operatorCap = 0 then [] else [(.operator, s.operatorCap)]

def State.closureSources (s : State) (g : Nat) : List (Binding × Nat) :=
  (s.closures.filter (·.caps g)).map (fun c => (.closure c.id, c.requestedCap))

def State.warningSources (s : State) (g : Nat) : List (Binding × Nat) :=
  ((warningAt s.warnings g).map (fun w => (Binding.warning, w.requestedCap))).toList

def State.congestionSources (s : State) (g : Nat) : List (Binding × Nat) :=
  if (s.trafficAt g).band = 0 then []
  else [(.congestion, congestionDemand (s.bands.getD []) s.corridorMax (s.trafficAt g).band)]

def initialSources (initial : Option Nat) : List (Binding × Nat) :=
  (initial.map (fun v => (Binding.initial, v))).toList

theorem State.demandSources_eq (s : State) (initial : Option Nat) (g : Nat) : s.demandSources initial g
    = s.operatorSources ++ s.closureSources g ++ s.warningSources g ++ s.congestionSources g ++ initialSources initial
        ++ [(.maximum, s.corridorMax)] := rfl

theorem State.demandSources_ne_nil (s : State) (initial : Option Nat) (g : Nat) : s.demandSources initial g ≠ [] := by
  simp [State.demandSources]

theorem State.mem_operatorSources {s : State} {b : Binding} {v : Nat} :
    (b, v) ∈ s.operatorSources ↔ b = .operator ∧ OperatorAsks s v := by
  unfold State.operatorSources OperatorAsks
  split <;> simp_all [eq_comm]

/-- R71, R90: a closure's cap reaches the gantries of its taper list and of its range until it is released. -/
theorem Closure.caps_iff (c : Closure) (g : Nat) :
    c.caps g = true ↔ c.state ≠ .releasing ∧ (g ∈ c.taper ∨ c.first ≤ g ∧ g ≤ c.last) := by
  have hactive : c.active = true ↔ c.state ≠ .releasing := by
    unfold Closure.active
    cases c.state <;> simp
  simp [Closure.caps, Closure.covers, hactive]

theorem State.mem_closureSources {s : State} {g : Nat} {b : Binding} {v : Nat} :
    (b, v) ∈ s.closureSources g ↔ ∃ c, b = .closure c.id ∧ ClosureAsks s g c v := by
  simp only [State.closureSources, ClosureAsks, List.mem_map, List.mem_filter, Closure.caps_iff, Prod.mk.injEq]
  constructor
  · rintro ⟨c, ⟨hc, hstate, hplace⟩, rfl, rfl⟩
    exact ⟨c, rfl, hc, hstate, hplace, rfl⟩
  · rintro ⟨c, rfl, hc, hstate, hplace, rfl⟩
    exact ⟨c, ⟨hc, hstate, hplace⟩, rfl, rfl⟩

theorem State.mem_warningSources {s : State} {g : Nat} {b : Binding} {v : Nat} :
    (b, v) ∈ s.warningSources g ↔ b = .warning ∧ WarningAsks s g v := by
  unfold State.warningSources WarningAsks
  cases warningAt s.warnings g <;> simp [eq_comm]

/-- A band of the table asks for its limit. -/
theorem State.mem_congestionSources {s : State} {g : Nat} (hband : (s.trafficAt g).band ≤ (s.bands.getD []).length)
    {b : Binding} {v : Nat} : (b, v) ∈ s.congestionSources g ↔ b = .congestion ∧ CongestionAsks s g v := by
  unfold State.congestionSources CongestionAsks
  split
  · rename_i h
    simp [h]
  · rename_i h
    have hlt : (s.trafficAt g).band - 1 < (s.bands.getD []).length := by omega
    simp [congestionDemand, bandLimit, h, List.getElem?_eq_getElem hlt, Nat.pos_of_ne_zero h, eq_comm]

/-- Any other band asks for the corridor maximum. -/
theorem State.congestionSources_value {s : State} {g : Nat} {b : Binding} {v : Nat} (h : (b, v) ∈ s.congestionSources g) :
    b = .congestion ∧ (CongestionAsks s g v ∨ v = s.corridorMax) := by
  rcases Nat.lt_or_ge (s.bands.getD []).length (s.trafficAt g).band with hband | hband
  · have hnone : (s.bands.getD [])[(s.trafficAt g).band - 1]? = none := List.getElem?_eq_none (by omega)
    have hne : (s.trafficAt g).band ≠ 0 := by omega
    simp only [State.congestionSources, if_neg hne, congestionDemand, bandLimit, hnone, Option.map_none, Option.getD_none,
      List.mem_singleton, Prod.mk.injEq] at h
    exact ⟨h.1, .inr h.2⟩
  · obtain ⟨hb, hv⟩ := (State.mem_congestionSources hband).1 h
    exact ⟨hb, .inl hv⟩

theorem CongestionAsks.mem {s : State} {g v : Nat} (h : CongestionAsks s g v) : (.congestion, v) ∈ s.congestionSources g := by
  obtain ⟨b, hpos, hb, hv⟩ := h
  have := (List.getElem?_eq_some_iff.1 hb).1
  exact (State.mem_congestionSources (by omega)).2 ⟨rfl, b, hpos, hb, hv⟩

theorem mem_initialSources {initial : Option Nat} {b : Binding} {v : Nat} :
    (b, v) ∈ initialSources initial ↔ b = .initial ∧ initial = some v := by
  unfold initialSources
  cases initial <;> simp [eq_comm]

/-- The values the sources ask for. -/
theorem State.mem_demandSources {s : State} {initial : Option Nat} {g v : Nat} :
    (∃ b, (b, v) ∈ s.demandSources initial g) ↔ OperatorAsks s v ∨ (∃ c, ClosureAsks s g c v) ∨ WarningAsks s g v
      ∨ CongestionAsks s g v ∨ initial = some v ∨ v = s.corridorMax := by
  simp only [State.demandSources_eq, List.mem_append, State.mem_operatorSources, State.mem_closureSources,
    State.mem_warningSources, mem_initialSources, List.mem_singleton, Prod.mk.injEq]
  constructor
  · rintro ⟨b, ((((⟨-, h⟩ | ⟨c, -, h⟩) | ⟨-, h⟩) | h) | ⟨-, h⟩) | ⟨-, h⟩⟩
    · exact .inl h
    · exact .inr (.inl ⟨c, h⟩)
    · exact .inr (.inr (.inl h))
    · obtain ⟨-, h | h⟩ := State.congestionSources_value h
      · exact .inr (.inr (.inr (.inl h)))
      · exact .inr (.inr (.inr (.inr (.inr h))))
    · exact .inr (.inr (.inr (.inr (.inl h))))
    · exact .inr (.inr (.inr (.inr (.inr h))))
  · rintro (h | ⟨c, h⟩ | h | h | h | h)
    · exact ⟨_, .inl (.inl (.inl (.inl (.inl ⟨rfl, h⟩))))⟩
    · exact ⟨_, .inl (.inl (.inl (.inl (.inr ⟨c, rfl, h⟩))))⟩
    · exact ⟨_, .inl (.inl (.inl (.inr ⟨rfl, h⟩)))⟩
    · exact ⟨_, .inl (.inl (.inr h.mem))⟩
    · exact ⟨_, .inl (.inr ⟨rfl, h⟩)⟩
    · exact ⟨_, .inr ⟨rfl, h⟩⟩

theorem State.mem_demandSources_operator {s : State} {initial : Option Nat} {g v : Nat} :
    (.operator, v) ∈ s.demandSources initial g ↔ OperatorAsks s v := by
  simp only [State.demandSources_eq, List.mem_append, State.mem_operatorSources, State.mem_closureSources,
    State.mem_warningSources, mem_initialSources, List.mem_singleton, Prod.mk.injEq, reduceCtorEq, false_and,
    exists_false, or_false, true_and]
  refine ⟨fun h => h.resolve_right fun hc => ?_, .inl⟩
  cases (State.congestionSources_value hc).1

/-! ## The part that binds (R72) -/

/-- A source found first in a list whose numbers rise has the least number of those that could be found. -/
theorem find?_least {α : Type} {f : α → Nat} {p : α → Bool} {l : List α} (hrise : (l.map f).Pairwise (· < ·)) {d c : α}
    (hd : l.find? p = some d) (hc : c ∈ l) (hp : p c = true) : f d ≤ f c := by
  induction l with
  | nil => cases hc
  | cons x rest ih =>
    obtain ⟨hx, hrest⟩ := List.pairwise_cons.1 hrise
    rw [List.find?_cons] at hd
    cases hpx : p x with
    | true =>
      rw [hpx] at hd
      obtain rfl : x = d := Option.some.inj hd
      rcases List.mem_cons.1 hc with rfl | hc
      · exact Nat.le_refl _
      · exact Nat.le_of_lt (hx _ (List.mem_map.2 ⟨c, hc, rfl⟩))
    | false =>
      rw [hpx] at hd
      rcases List.mem_cons.1 hc with rfl | hc
      · rw [hpx] at hp
        cases hp
      · exact ih hrest hd hc

/-- R72: of the closures that ask for a value, that of least id binds. -/
theorem State.firstAsking_closure {s : State} {g v : Nat} (hrise : (s.closures.map (·.id)).Pairwise (· < ·)) {c : Closure}
    (hc : ClosureAsks s g c v) (hleast : ∀ d, ClosureAsks s g d v → c.id ≤ d.id) :
    firstAsking v (s.closureSources g) = some (.closure c.id) := by
  have hrise' : ((s.closures.filter (·.caps g)).map (·.id)).Pairwise (· < ·) := hrise.sublist (List.filter_sublist.map _)
  have hfind : firstAsking v (s.closureSources g)
      = ((s.closures.filter (·.caps g)).find? (fun d => d.requestedCap == v)).map (fun d => .closure d.id) := by
    rw [firstAsking, State.closureSources, List.find?_map, Option.map_map]
    rfl
  have hmem := firstAsking_eq_none (v := v) (sources := s.closureSources g)
  obtain ⟨hcs, hstate, hplace, hcap⟩ := hc
  cases hd : (s.closures.filter (·.caps g)).find? (fun d => d.requestedCap == v) with
  | none =>
    rw [hfind, hd] at hmem
    exact absurd (State.mem_closureSources.2 ⟨c, rfl, hcs, hstate, hplace, hcap⟩) (hmem.1 rfl _)
  | some d =>
    obtain ⟨hds, hcaps⟩ := List.mem_filter.1 (List.mem_of_find?_eq_some hd)
    obtain ⟨hdstate, hdplace⟩ := (d.caps_iff g).1 hcaps
    have hle := hleast d ⟨hds, hdstate, hdplace, by simpa using List.find?_some hd⟩
    have hge := find?_least hrise' hd (List.mem_filter.2 ⟨hcs, (c.caps_iff g).2 ⟨hstate, hplace⟩⟩) (by simpa using hcap)
    rw [hfind, hd, Option.map_some, Nat.le_antisymm hge hle]

/-- The parts in the order of R72. -/
theorem State.bindingOf_demandSources {s : State} {initial : Option Nat} {g v : Nat}
    (hv : lowest (s.demandSources initial g) = v) : bindingOf (s.demandSources initial g)
      = ((firstAsking v s.operatorSources).or ((firstAsking v (s.closureSources g)).or
          ((firstAsking v (s.warningSources g)).or ((firstAsking v (s.congestionSources g)).or
            ((firstAsking v (initialSources initial)).or (firstAsking v [(.maximum, s.corridorMax)])))))).getD .maximum := by
  rw [bindingOf_eq, hv, State.demandSources_eq]
  simp only [firstAsking_append, Option.or_assoc]

/-- R72 below the operator: the closure of least id, then the warning, the congestion band, the initial limit and the
corridor maximum. -/
theorem State.binding_below_operator {s : State} {initial : Option Nat} {g v : Nat}
    (hv : lowest (s.demandSources initial g) = v) (hband : (s.trafficAt g).band ≤ (s.bands.getD []).length)
    (hoperator : ¬ OperatorAsks s v) :
    ((s.closures.map (·.id)).Pairwise (· < ·) → ∀ c, ClosureAsks s g c v → (∀ d, ClosureAsks s g d v → c.id ≤ d.id) →
      bindingOf (s.demandSources initial g) = .closure c.id)
    ∧ ((∀ c, ¬ ClosureAsks s g c v) →
        (WarningAsks s g v → bindingOf (s.demandSources initial g) = .warning)
        ∧ (¬ WarningAsks s g v → CongestionAsks s g v → bindingOf (s.demandSources initial g) = .congestion)
        ∧ (¬ WarningAsks s g v → ¬ CongestionAsks s g v → initial = some v →
            bindingOf (s.demandSources initial g) = .initial)
        ∧ (¬ WarningAsks s g v → ¬ CongestionAsks s g v → initial ≠ some v →
            bindingOf (s.demandSources initial g) = .maximum)) := by
  have noOperator : firstAsking v s.operatorSources = none :=
    firstAsking_eq_none.2 fun b hb => hoperator (State.mem_operatorSources.1 hb).2
  rw [State.bindingOf_demandSources hv, noOperator, Option.none_or]
  refine ⟨fun hrise c hc hleast => ?_, fun hclosure => ?_⟩
  · rw [State.firstAsking_closure hrise hc hleast, Option.some_or, Option.getD_some]
  · have noClosure : firstAsking v (s.closureSources g) = none := firstAsking_eq_none.2 fun b hb => by
      obtain ⟨c, -, hc⟩ := State.mem_closureSources.1 hb
      exact hclosure c hc
    have noWarning (h : ¬ WarningAsks s g v) : firstAsking v (s.warningSources g) = none :=
      firstAsking_eq_none.2 fun b hb => h (State.mem_warningSources.1 hb).2
    have noCongestion (h : ¬ CongestionAsks s g v) : firstAsking v (s.congestionSources g) = none :=
      firstAsking_eq_none.2 fun b hb => h ((State.mem_congestionSources hband).1 hb).2
    rw [noClosure, Option.none_or]
    refine ⟨fun hw => ?_, fun hw hc => ?_, fun hw hc hi => ?_, fun hw hc hi => ?_⟩
    · rw [firstAsking_eq_some (State.mem_warningSources.2 ⟨rfl, hw⟩) fun c hc => (State.mem_warningSources.1 hc).1]
      rfl
    · rw [noWarning hw, firstAsking_eq_some hc.mem fun c hc => (State.congestionSources_value hc).1]
      rfl
    · rw [noWarning hw, noCongestion hc,
        firstAsking_eq_some (mem_initialSources.2 ⟨rfl, hi⟩) fun c hc => (mem_initialSources.1 hc).1]
      rfl
    · have noInitial : firstAsking v (initialSources initial) = none :=
        firstAsking_eq_none.2 fun b hb => hi (mem_initialSources.1 hb).2
      rw [noWarning hw, noCongestion hc, noInitial, Option.none_or, Option.none_or, Option.none_or]
      cases hm : firstAsking v [(.maximum, s.corridorMax)] with
      | none => rfl
      | some b =>
        have : b = .maximum ∧ v = s.corridorMax := by simpa using firstAsking_mem hm
        exact this.1

/-- R72: the operator cap binds exactly where it asks for the demand. -/
theorem State.binding_operator_iff (s : State) (initial : Option Nat) (g : Nat) :
    bindingOf (s.demandSources initial g) = .operator ↔ OperatorAsks s (lowest (s.demandSources initial g)) := by
  constructor
  · intro hb
    have hmem := bindingOf_mem (s.demandSources_ne_nil initial g)
    rw [hb] at hmem
    exact State.mem_demandSources_operator.1 hmem
  · intro ho
    rw [State.bindingOf_demandSources rfl, firstAsking_eq_some (State.mem_operatorSources.2 ⟨rfl, ho⟩)
      fun c hc => (State.mem_operatorSources.1 hc).1]
    rfl

/-- Settles O46: the demand is the lowest of the sources' values, which are the limits asked for; the binding is the first
source in the order of its parts; the rounding is `rounding_spec`. -/
theorem demandIsTheLowestAndIsRounded : Obligations.DemandIsTheLowestAndIsRounded := by
  intro s initial timed g r hr
  obtain ⟨-, rfl⟩ := State.planRun_some hr
  obtain ⟨hrounded, hclamped⟩ := rounding_spec s.displayable (lowest (s.demandSources initial g))
  refine ⟨State.mem_demandSources.1 (lowest_mem (s.demandSources_ne_nil initial g)), fun v hv => ?_,
    s.binding_operator_iff initial g, State.binding_below_operator rfl, rfl, hrounded, hclamped⟩
  obtain ⟨b, hb⟩ := State.mem_demandSources.2 hv
  exact lowest_le hb

end Sys2Proof.Machine
end

section
/-! The two laws of the speed plan at every step (R64, R79): every run leaves them, and what makes no run moves nothing that they
read. -/

namespace Sys2Proof.Machine

open Sys2Proof

/-! ## The displayable set (R4) -/

/-- A displayable set that is present is not empty and rises. -/
def SpeedsHeld (s : State) : Prop := ∀ set, s.speeds = some set → set ≠ [] ∧ set.Pairwise (· < ·)

theorem SpeedsHeld.same {s t : State} (h : SpeedsHeld s) (e : t.speeds = s.speeds) : SpeedsHeld t :=
  fun set hset => h set (e ▸ hset)

theorem SpeedsHeld.of_none {s : State} (h : s.speeds = none) : SpeedsHeld s := fun set hset => by
  rw [h] at hset
  cases hset

/-- Values that pass MAP_SPEEDS's checks rise, from above the value before them. -/
theorem speedFields_rise {field : Nat} {before : Option Nat} {values : List Nat}
    (h : firstBad (speedFields field before values) = none) :
    values.Pairwise (· < ·) ∧ ∀ u, before = some u → ∀ v ∈ values, u < v := by
  induction values generalizing field before with
  | nil => exact ⟨.nil, by simp⟩
  | cons v rest ih =>
    rw [speedFields_cons, firstBad_eq_none, List.forall_mem_cons, ← firstBad_eq_none] at h
    obtain ⟨hv, hrest⟩ := h
    obtain ⟨hrise, habove⟩ := ih hrest
    refine ⟨List.pairwise_cons.2 ⟨habove v rfl, hrise⟩, fun u hu w hw => ?_⟩
    have huv : u < v := by
      simp only [speedOk, hu, Option.all_some, Bool.and_eq_true, decide_eq_true_eq] at hv
      exact hv.2
    rcases List.mem_cons.1 hw with rfl | hw
    · exact huv
    · exact Nat.lt_trans huv (habove v rfl w hw)

/-- R4: the set a fitting body of MAP_SPEEDS gives. -/
theorem mapSpeedsEffect_held {b : Bytes} {s : State} (hl : lengthFits .mapSpeeds b = true) (h : SpeedsHeld s) :
    SpeedsHeld (mapSpeedsEffect b s).1 := by
  unfold mapSpeedsEffect
  split
  · exact h
  · split
    · exact h
    · rename_i hfields
      rintro set ⟨⟩
      rw [firstBad_eq_none, List.forall_mem_cons, ← firstBad_eq_none] at hfields
      obtain ⟨hcount, hvalues⟩ := hfields
      refine ⟨fun hnil => ?_, (speedFields_rise hvalues).1⟩
      have hlen : (speedsAt b).length = u8At b 0 := by
        cases b with
        | nil => simp [lengthFits, countedLength] at hl
        | cons n rest =>
          have : (n :: rest).length = 1 + 1 * n.toNat := by simpa [lengthFits, countedLength] using hl
          simp only [List.length_cons] at this
          simp only [speedsAt, List.drop_succ_cons, List.drop_zero, List.length_map, u8At, List.getD_cons_zero]
          omega
      have hpos : 2 ≤ u8At b 0 := (of_decide_eq_true hcount).1
      rw [hnil, List.length_nil] at hlen
      omega

/-- No other request writes the displayable set. -/
theorem requestEffect_speeds {k : RequestKind} (hk : k ≠ .mapSpeeds) (b : Bytes) (s : State) :
    (requestEffect k b s).1.speeds = s.speeds := by
  cases k with
  | mapSpeeds => exact absurd rfl hk
  | identify | status | reset => rfl
  | closureQuery => exact congrArg State.speeds (closureQueryEffect_state b s)
  | gantryQuery => exact congrArg State.speeds (gantryQueryEffect_state b s)
  | panelQuery => exact congrArg State.speeds (panelQueryEffect_state b s)
  | historyRead => exact congrArg State.speeds (historyReadEffect_state b s)
  | historyFreeze => exact State.freeze_speeds s _
  | historyResume => rfl
  | mapParams =>
    change (mapParamsEffect b s).1.speeds = s.speeds
    unfold mapParamsEffect
    (repeat' split) <;> rfl
  | mapGantry =>
    change (mapGantryEffect b s).1.speeds = s.speeds
    unfold mapGantryEffect
    (repeat' split) <;> rfl
  | mapBands =>
    change (mapBandsEffect b s).1.speeds = s.speeds
    unfold mapBandsEffect
    (repeat' split) <;> rfl
  | start =>
    change (startEffect b s).1.speeds = s.speeds
    unfold startEffect
    (repeat' split) <;> rfl
  | stop =>
    change (stopEffect b s).1.speeds = s.speeds
    unfold stopEffect
    (repeat' split) <;> rfl
  | detector =>
    change (detectorEffect b s).1.speeds = s.speeds
    unfold detectorEffect
    (repeat' split) <;> simp [accept, refuse, badValue]
  | triggerSet =>
    change (triggerSetEffect b s).1.speeds = s.speeds
    unfold triggerSetEffect
    (repeat' split) <;> rfl
  | triggerEnable =>
    change (triggerEnableEffect b s).1.speeds = s.speeds
    unfold triggerEnableEffect
    (repeat' split) <;> rfl
  | triggerDisable =>
    change (triggerDisableEffect b s).1.speeds = s.speeds
    unfold triggerDisableEffect
    split
    · rfl
    · split
      · rfl
      · dsimp only [accept]
        split <;> simp
  | triggerRearm =>
    change (triggerRearmEffect b s).1.speeds = s.speeds
    unfold triggerRearmEffect
    (repeat' split) <;> rfl
  | warningClear =>
    change (warningClearEffect b s).1.speeds = s.speeds
    unfold warningClearEffect
    (repeat' split) <;> simp [accept, badValue]
  | closureSet =>
    change (closureSetEffect b s).1.speeds = s.speeds
    unfold closureSetEffect
    (repeat' split) <;> simp [accept, refuse, badValue]
  | closureRelease =>
    change (closureReleaseEffect b s).1.speeds = s.speeds
    unfold closureReleaseEffect
    (repeat' split) <;> simp [accept, refuse, badValue]
  | operatorCap =>
    change (operatorCapEffect b s).1.speeds = s.speeds
    unfold operatorCapEffect
    (repeat' split) <;> simp [accept]
  | operatorLegend =>
    change (operatorLegendEffect b s).1.speeds = s.speeds
    unfold operatorLegendEffect
    (repeat' split) <;> simp [accept, badValue]
  | lineQuiesce =>
    change (lineQuiesceEffect b s).1.speeds = s.speeds
    unfold lineQuiesceEffect State.changeLine
    split <;> rfl
  | lineResume =>
    change (lineResumeEffect b s).1.speeds = s.speeds
    unfold lineResumeEffect State.changeLine
    split <;> rfl

theorem requestEffect_held {k : RequestKind} {b : Bytes} {s : State} (hl : lengthFits k b = true) (h : SpeedsHeld s) :
    SpeedsHeld (requestEffect k b s).1 := by
  by_cases hk : k = .mapSpeeds
  · subst hk
    exact mapSpeedsEffect_held hl h
  · exact h.same (requestEffect_speeds hk b s)

/-- A good frame writes no more of the map than its act does. -/
theorem SpeedsHeld.arrive {s : State} (h : SpeedsHeld s) (body : Bytes) {act : State → State × Frame}
    (hact : ∀ r, SpeedsHeld r → SpeedsHeld (act r).1) : SpeedsHeld (s.arrive body act) := by
  unfold State.arrive
  split
  · exact h
  · split
    · exact h
    · dsimp only
      split
      · exact h
      · split
        · exact h
        · have heard : SpeedsHeld { s with link := { s.link with rx := .hunt } } := h
          exact (hact _ heard).same (State.transmit_speeds _)

/-- R161: a body of another length than its kind's never reaches the block. -/
theorem SpeedsHeld.take {s : State} (h : SpeedsHeld s) (k : RequestKind) (tag : Byte) (body : Bytes) :
    SpeedsHeld (s.take k tag body (requestEffect k)) := by
  refine h.arrive body fun r hr => ?_
  dsimp only
  split
  · rename_i hl
    exact requestEffect_held hl hr
  · exact hr

theorem SpeedsHeld.arriveFrame {s : State} (h : SpeedsHeld s) (kind tag : Byte) (body : Bytes) :
    SpeedsHeld (s.arriveFrame kind tag body) := by
  unfold State.arriveFrame
  split
  · exact h.take _ tag body
  · exact h.arrive body fun r hr => hr

theorem SpeedsHeld.receive {s : State} (h : SpeedsHeld s) (c : Byte) : SpeedsHeld (s.receive c) := by
  unfold State.receive
  split
  · exact h
  · split
    · split <;> exact h
    · unfold State.headerChar
      (repeat' split) <;> exact h
    · unfold State.bodyChar
      split <;> exact h
    · unfold State.checkChar
      split
      · exact h
      · split
        · exact h.arriveFrame _ _ _
        · exact h

theorem State.restart_speeds (s : State) (cause : ResetCause) : (s.restart cause).speeds = s.speeds := by
  simp [State.restart, State.senseLines]

theorem State.discardRequest_speeds (s : State) : s.discardRequest.speeds = s.speeds := by
  unfold State.discardRequest
  split <;> rfl

theorem State.dropFrame_speeds (s : State) : s.dropFrame.speeds = s.speeds := by
  unfold State.dropFrame
  (repeat' split) <;> rfl

theorem State.endFrame_speeds (s : State) : s.endFrame.speeds = s.speeds := by
  unfold State.endFrame
  split
  · rfl
  · split
    · exact State.restart_speeds _ _
    · exact State.transmit_speeds _

theorem State.followSense_speeds (s : State) (l : LineId) (level : Nat) : (s.followSense l level).speeds = s.speeds := by
  unfold State.followSense
  (repeat' split) <;> simp

/-- Every command leaves a displayable set that is present not empty and rising: MAP_SPEEDS alone writes one. -/
theorem SpeedsHeld.exec {i : Instr} {s t : State} (h : SpeedsHeld s) (ht : exec i s = .next t) : SpeedsHeld t := by
  cases i with
  | identify tag b | status tag b | reset tag b | mapParams tag b | mapGantry tag b | mapSpeeds tag b | mapBands tag b
  | start tag b | stop tag b | detector tag b | triggerSet tag b | triggerEnable tag b | triggerDisable tag b
  | triggerRearm tag b | warningClear tag b | closureSet tag b | closureRelease tag b | closureQuery tag b
  | operatorCap tag b | operatorLegend tag b | gantryQuery tag b | panelQuery tag b | historyFreeze tag b
  | historyRead tag b | historyResume tag b | lineQuiesce tag b | lineResume tag b =>
    exact Host.Outcome.next.inj ht ▸ h.take _ tag b
  | unknownKind kind tag b => exact Host.Outcome.next.inj ht ▸ h.arriveFrame kind tag b
  | hostCharacterReceived c => exact Host.Outcome.next.inj ht ▸ h.receive c
  | powerOn | supplyDip =>
    exact Host.Outcome.next.inj ht ▸ SpeedsHeld.of_none (State.restart_speeds s.clearAll _)
  | frameSent => exact Host.Outcome.next.inj ht ▸ h.same s.endFrame_speeds
  | nrstAssert => exact Host.Outcome.next.inj ht ▸ h
  | nrstRelease =>
    obtain rfl := Host.Outcome.next.inj ht
    split
    · exact h.same (State.restart_speeds _ _)
    · exact h
  | frameDiscard | corridorClockAdvance | refreshDue =>
    obtain rfl := Host.Outcome.next.inj ht
    refine h.same ?_
    split <;> rfl
  | requestDiscard => exact Host.Outcome.next.inj ht ▸ h.same s.discardRequest_speeds
  | framingError | interByteGapExpiry => exact Host.Outcome.next.inj ht ▸ h.same s.dropFrame_speeds
  | planPeriodExpiry =>
    obtain rfl := Host.Outcome.next.inj ht
    refine h.same ?_
    split <;> simp [State.expirePlanPeriod]
  | dwellExpiry id =>
    obtain rfl := Host.Outcome.next.inj ht
    refine h.same ?_
    unfold State.expireDwell
    split <;> simp
  | establishLimitExpiry id =>
    obtain rfl := Host.Outcome.next.inj ht
    refine h.same ?_
    unfold State.expireEstablish
    split <;> simp
  | transactionStart l => exact Host.Outcome.next.inj ht ▸ h.same (s.startTransaction_speeds l)
  | requestSent l | replyBegun l => exact Host.Outcome.next.inj ht ▸ h.same (s.advancePhase_speeds l _ _)
  | replyComplete l | replyCharacterTimeout l | replyWindowEnd l =>
    exact Host.Outcome.next.inj ht ▸ h.same (s.endIn_speeds l _ _)
  | gapEnd l => exact Host.Outcome.next.inj ht ▸ h.same (s.endGap_speeds l)
  | supplyFallLow l level | supplyRiseNormal l level =>
    exact Host.Outcome.next.inj ht ▸ h.same (s.followSense_speeds l level)

/-! ## The gantry table (R1, R2) -/

/-- Every move leaves the gantry table G places. -/
theorem BlockMove.gantries_length {s t : State} (hm : BlockMove s t) (h : s.gantries.length = s.params.gantryCount) :
    t.gantries.length = t.params.gantryCount := by
  cases hm with
  | mapParams p => exact resizeTable_length s.params p s.gantries
  | mapGantry g r => exact (List.length_set ..).trans h
  | beginClear => rfl
  | stays | mapSpeeds | mapBands | start | stop | triggerSet | enableStopped | enableRunning | disableQuiet | rearm
  | historyResume | lineQuiesce | lineResume | clockAdvance | planPeriod | establishLimit | refresh | endUnheld | sense | supply
  | supplyBack | hold | begin => exact h
  | detector | disable | warningClear | closureSet | closureEnd | closureRelease | operatorCap | operatorLegend | freeze
  | dwellExpiry | transactionStart | phase | outcome | endGap => simpa using h

/-! ## The panel records (R12, R125, R134) -/

theorem PanelsDistinct.same {s t : State} (h : PanelsDistinct s) (e : t.panels = s.panels) : PanelsDistinct t := by
  unfold PanelsDistinct
  rw [e]
  exact h

/-- START's records are those of a consistent map, whatever the lines held before. -/
theorem PanelsDistinct.startRun {s : State} (hf : s.mapFault = none) (initial : Nat) : PanelsDistinct (s.startRun initial) := by
  have cleared : LinesFit { s with panels := [], lines := ⟨.rest .normal, .rest .normal, .rest .normal, .rest .normal⟩ } :=
    .of_cleared rfl fun l => ⟨.normal, by cases l <;> rfl⟩
  obtain ⟨hpanels, -⟩ := cleared.startRun hf initial
  exact ⟨hpanels.panels, hpanels.addrs⟩

/-- An outcome replaces one record (R134). -/
theorem State.applyOutcome_panels (s : State) (l : LineId) (t : InFlight) (j : Judged) (old : PanelRec) :
    (s.applyOutcome l t j old).panels
      = putPanel s.panels (updatePanel s.params (s.lines.get l).supply s.clock j old) := by
  unfold State.applyOutcome
  dsimp only
  split <;> simp

theorem PanelsDistinct.applyOutcome {s : State} (h : PanelsDistinct s) {l : LineId} {t : InFlight} {old : PanelRec}
    (hold : panelOn s.panels l t.address = some old) (j : Judged) : PanelsDistinct (s.applyOutcome l t j old) := by
  obtain ⟨hpanels, haddrs⟩ := h
  obtain ⟨hp, ha⟩ := updatePanel_place s.params (s.lines.get l).supply s.clock j old
  unfold PanelsDistinct
  rw [State.applyOutcome_panels, putPanel_panels haddrs (panelOn_some hold).1 hp ha, putPanel_addrs]
  exact ⟨hpanels, haddrs⟩

theorem PanelsDistinct.of_nil {s : State} (h : s.panels = []) : PanelsDistinct s := by simp [PanelsDistinct, h]

theorem PanelsDistinct.move {s t : State} (hm : BlockMove s t) (h : PanelsDistinct s) : PanelsDistinct t := by
  cases hm with
  | start initial _ hf => exact .startRun hf initial
  | outcome l t r j _ hr => exact PanelsDistinct.applyOutcome (s := s.setLine l _) h hr j
  | hold | begin | beginClear => exact .of_nil rfl
  | stays | mapParams | mapGantry | mapSpeeds | mapBands | stop | triggerSet | enableStopped | enableRunning | disableQuiet
  | rearm | historyResume | lineQuiesce | lineResume | clockAdvance | planPeriod | establishLimit | refresh | endUnheld | sense
  | supply | supplyBack => exact h
  | detector | disable | warningClear | closureSet | closureEnd | closureRelease | operatorCap | operatorLegend | freeze
  | dwellExpiry | transactionStart | phase | endGap => exact h.same (by simp)

/-! ## What a run leaves (R64, R79) -/

/-- What a run builds on: while RUNNING there is a displayable set, and every shown limit is a member of it. -/
def PlanStands (s : State) : Prop :=
  s.operating = .running → s.displayable ≠ [] ∧ ∀ g, g < s.params.gantryCount → (s.planAt g).shown ∈ s.displayable

/-- The second state has the operating state, the map and the plan of the first. -/
structure SamePlan (s t : State) : Prop where
  operating : t.operating = s.operating
  speeds : t.speeds = s.speeds
  params : t.params = s.params
  plan : t.plan = s.plan

theorem PlanLawful.of_stopped {s : State} (h : s.operating = .stopped) : PlanLawful s := fun hr => by
  rw [h] at hr
  cases hr

theorem PlanLawful.stands {s : State} (h : PlanLawful s) : PlanStands s := fun hr => by
  obtain ⟨hset, -, -, hrecords⟩ := h hr
  exact ⟨hset, fun g hg => (hrecords g hg).1⟩

theorem SamePlan.displayable {s t : State} (e : SamePlan s t) : t.displayable = s.displayable :=
  congrArg (·.getD []) e.speeds

theorem SamePlan.planAt {s t : State} (e : SamePlan s t) (g : Nat) : t.planAt g = s.planAt g := by
  rw [State.planAt, State.planAt, State.corridorMax, State.corridorMax, e.plan, e.displayable]

theorem PlanStands.same {s t : State} (h : PlanStands s) (e : SamePlan s t) : PlanStands t := by
  unfold PlanStands
  simp only [e.operating, e.displayable, e.params, e.planAt]
  exact h

/-- The laws read of the panel records the darkness of the gantries alone. -/
theorem PlanLawful.same {s t : State} (h : PlanLawful s) (e : SamePlan s t)
    (hdark : ∀ g, g < s.params.gantryCount → darkAt t.panels g = darkAt s.panels g) : PlanLawful t := by
  unfold PlanLawful
  simp only [e.operating, e.displayable, e.params, e.planAt, e.plan]
  intro hr
  obtain ⟨hset, hlength, hdrop, hrecords⟩ := h hr
  refine ⟨hset, hlength, fun g k hn => hdrop g k ?_, hrecords⟩
  obtain ⟨hgk, hk, hsigns, hbetween⟩ := hn
  rw [e.params] at hk
  exact ⟨hgk, hk, (hdark k hk).symm.trans hsigns,
    fun m hgm hmk => (hdark m (Nat.lt_trans hmk hk)).symm.trans (hbetween m hgm hmk)⟩

/-- R79: a run leaves both laws, whatever the sources ask for. -/
theorem PlanStands.runPlan {s : State} (h : PlanStands s) (timed : Bool) (initial : Option Nat) :
    PlanLawful (s.runPlan timed initial) := by
  intro hr
  obtain ⟨hset, hshown⟩ := h hr
  have stages {g : Nat} (hg : g < s.params.gantryCount) := State.planAt_eq (s := s.runPlan timed initial)
    (s.planRun_stages timed initial hg)
  have target_mem {g : Nat} (hg : g < s.params.gantryCount) : (s.targets initial).getD g 0 ∈ s.displayable := by
    rw [s.targets_eq initial]
    exact sweep_mem _ _ _ _ _ hg fun m _ => roundInto_mem hset _
  have shown_mem {g : Nat} (hg : g < s.params.gantryCount) : (s.runShown timed initial).getD g 0 ∈ s.displayable := by
    rw [s.runShown_eq timed initial]
    exact sweep_mem _ _ _ _ _ hg fun m hm => candidate_mem (target_mem hm) (hshown m hm) _ _ _
  refine ⟨hset, s.planRun_length timed initial, fun g k hn => ?_, fun g hg => ?_⟩
  · have hnext : nextSigning s g k := hn
    rw [stages (Nat.lt_trans hnext.1 hnext.2.1), stages hnext.2.1]
    calc (s.runShown timed initial).getD g 0
        ≤ boundFrom s.displayable s.params.maxDrop ((s.runShown timed initial).getD k 0) := by
          rw [State.runShown_next hnext]
          exact Nat.min_le_right _ _
      _ ≤ (s.runShown timed initial).getD k 0 + s.params.maxDrop := boundFrom_le _ _ _
  · rw [stages hg]
    exact ⟨shown_mem hg, target_mem hg, roundInto_mem hset _,
      Nat.le_trans (s.runShown_le timed initial hg) (candidate_le_target (target_mem hg) _ _ _ _), State.targets_le hg⟩

/-! ## A change of sources (R66, R68) -/

/-- R68: what follows a run moves nothing that the laws read. -/
theorem PlanLawful.resolved {s : State} (h : PlanLawful s) : PlanLawful s.resolve.endReleased :=
  h.same ⟨rfl, rfl, rfl, rfl⟩ fun _ _ => rfl

theorem PlanLawful.afterSources {s : State} (h : PlanLawful s) (demand : Bool) : PlanLawful (s.afterSources demand) := by
  unfold State.afterSources
  split
  · cases demand with
    | false => exact h.resolved
    | true => exact (h.stands.runPlan false none).resolved
  · exact h

/-- R66: a change of demand or darkness makes the run that restores the laws. -/
theorem PlanStands.afterSources {s : State} (h : PlanStands s) : PlanLawful (s.afterSources true) := by
  unfold State.afterSources
  split
  · exact (h.runPlan false none).resolved
  · rename_i hs
    exact .of_stopped (OpState.eq_stopped hs)

theorem PlanLawful.afterClosures {s : State} (h : PlanLawful s) (demand : Bool) : PlanLawful (s.afterClosures demand) := by
  unfold State.afterClosures
  split
  · exact PlanLawful.afterSources (s := s.workClosures) (h.same ⟨rfl, rfl, rfl, rfl⟩ fun _ _ => rfl) _
  · exact h

theorem PlanStands.afterClosures {s : State} (h : PlanStands s) : PlanLawful (s.afterClosures true) := by
  unfold State.afterClosures
  split
  · exact PlanStands.afterSources (s := s.workClosures) (h.same ⟨rfl, rfl, rfl, rfl⟩)
  · rename_i hs
    exact .of_stopped (OpState.eq_stopped hs)

/-! ## An outcome (R67, R134) -/

theorem darkAt_iff {ps : List PanelRec} {g : Nat} :
    darkAt ps g = true ↔ ∀ r ∈ ps, r.panel.gantry = g → r.panel.panel ≠ 0 → r.health = .failed := by
  simp only [darkAt, List.all_eq_true, List.mem_filter, Bool.and_eq_true, beq_iff_eq, bne_iff_ne, and_imp]

/-- Of distinct records, one is replaced and the others stand. -/
theorem mem_putPanel {ps : List PanelRec} (h : (ps.map (·.addr)).Nodup) {old new : PanelRec} (hold : old ∈ ps)
    (ha : new.addr = old.addr) {r : PanelRec} : r ∈ putPanel ps new ↔ r = new ∨ r ∈ ps ∧ r ≠ old := by
  simp only [putPanel, List.mem_map]
  constructor
  · rintro ⟨q, hq, rfl⟩
    split
    · exact .inl rfl
    · rename_i hne
      refine .inr ⟨hq, ?_⟩
      rintro rfl
      exact hne ha.symm
  · rintro (rfl | ⟨hr, hne⟩)
    · exact ⟨old, hold, if_pos ha.symm⟩
    · exact ⟨r, hr, if_neg fun hra => hne (eq_of_addr h hr hold (hra.trans ha))⟩

/-- R67: the message panel plays no part in darkness. -/
theorem darkAt_putPanel_message {ps : List PanelRec} (h : (ps.map (·.addr)).Nodup) {old new : PanelRec} (hold : old ∈ ps)
    (hp : new.panel = old.panel) (ha : new.addr = old.addr) (hmessage : new.panel.panel = 0) (g : Nat) :
    darkAt (putPanel ps new) g = darkAt ps g := by
  rw [Bool.eq_iff_iff, darkAt_iff, darkAt_iff]
  constructor
  · intro hall r hr hg hlane
    refine hall r ((mem_putPanel h hold ha).2 (.inr ⟨hr, ?_⟩)) hg hlane
    rintro rfl
    exact hlane (hp ▸ hmessage)
  · intro hall r hr hg hlane
    rcases (mem_putPanel h hold ha).1 hr with rfl | ⟨hr, -⟩
    · exact absurd hmessage hlane
    · exact hall r hr hg hlane

theorem PlanLawful.askShown {s : State} (h : PlanLawful s) (old new : PanelRec) : PlanLawful (s.askShown old new) :=
  h.same ⟨by simp, by simp, by simp, by simp⟩ (by simp)

theorem PlanLawful.applyOutcome {s : State} (h : PlanLawful s) (hdistinct : PanelsDistinct s) {l : LineId} {t : InFlight}
    {old : PanelRec} (hold : panelOn s.panels l t.address = some old) (j : Judged) :
    PlanLawful (s.applyOutcome l t j old) := by
  unfold State.applyOutcome
  dsimp only
  obtain ⟨hp, ha⟩ := updatePanel_place s.params (s.lines.get l).supply s.clock j old
  generalize updatePanel s.params (s.lines.get l).supply s.clock j old = new at hp ha ⊢
  generalize hu : State.reportHealth _ old new j.outcome = u
  have hplan : SamePlan s u := by
    subst hu
    exact ⟨by simp, by simp, by simp, by simp⟩
  have hpanels : u.panels = putPanel s.panels new := by
    subst hu
    simp
  refine PlanLawful.askShown ?_ old new
  split
  · rename_i hmessage
    refine (h.same hplan fun g _ => ?_).afterSources false
    rw [hpanels]
    exact darkAt_putPanel_message hdistinct.2 (panelOn_some hold).1 hp ha hmessage g
  · by_cases hdark : u.darkness = s.darkness
    · refine (h.same hplan fun g hg => ?_).afterClosures _
      rw [State.darkness, State.darkness, hplan.params, List.map_inj_left] at hdark
      exact hdark g (List.mem_range.2 hg)
    · rw [decide_eq_true hdark]
      exact (h.stands.same hplan).afterClosures

/-! ## START (R10, R11, R70) -/

theorem State.mapFault_speeds {s : State} (h : s.mapFault = none) : ∃ set, s.speeds = some set := by
  rw [State.mapFault, firstFault_eq_none] at h
  exact Option.isSome_iff_exists.1 (h (s.speeds.isSome, (8, 0)) (by simp))

theorem PlanLawful.startRun {s : State} (hspeeds : SpeedsHeld s) (hf : s.mapFault = none) (initial : Nat) :
    PlanLawful (s.startRun initial) := by
  obtain ⟨set, hset⟩ := State.mapFault_speeds hf
  have hne : s.displayable ≠ [] := by
    rw [State.displayable, hset]
    exact (hspeeds set hset).1
  have begun : PlanStands (s.startBlocks initial) := fun _ => ⟨hne, fun g hg => by
    have hrec : (s.startBlocks initial).plan[g]? = some (PlanRec.from (roundInto s.displayable initial)) :=
      (List.getElem?_replicate ..).trans (if_pos hg)
    rw [State.planAt_eq hrec]
    exact roundInto_mem hne initial⟩
  exact (begun.runPlan false (some initial)).same ⟨rfl, rfl, rfl, rfl⟩ fun _ _ => rfl

/-! ## Every move -/

theorem PlanLawful.move {s t : State} (hm : BlockMove s t) (hdistinct : PanelsDistinct s) (hspeeds : SpeedsHeld s)
    (h : PlanLawful s) : PlanLawful t := by
  cases hm with
  | mapParams _ hs | mapGantry _ _ hs | mapSpeeds _ hs | mapBands _ hs => exact .of_stopped hs
  | stop | hold | begin | beginClear => exact .of_stopped rfl
  | start initial _ hf => exact .startRun hspeeds hf initial
  | stays | triggerSet | enableStopped | enableRunning | disableQuiet | rearm | historyResume | lineQuiesce | lineResume
  | clockAdvance | establishLimit | refresh | endUnheld | sense | supply | supplyBack => exact h
  | freeze | transactionStart | phase | endGap => exact h.same ⟨by simp, by simp, by simp, by simp⟩ (by simp)
  | detector b =>
    have read : PlanLawful ((s.recordTraffic b).evaluateGantry (u8At b 0)) :=
      h.same ⟨by simp, by simp, by simp, by simp⟩ (by simp)
    unfold State.applyDetector
    dsimp only
    split
    · exact read.afterSources true
    · exact read
  | disable p => exact PlanLawful.afterSources (s := s.disableProgram p) h true
  | warningClear w => exact PlanLawful.afterSources (s := s.endWarning w .cleared) h true
  | closureSet b => exact PlanLawful.afterClosures (s := s.createClosure (newClosure s b)) h true
  | closureEnd c => exact PlanLawful.afterClosures (s := s.endRequested c) h true
  | closureRelease c => exact PlanLawful.afterClosures (s := s.enterReleasing c) h true
  | operatorCap v => exact PlanLawful.afterSources (s := { s with operatorCap := v }) h true
  | operatorLegend ls => exact PlanLawful.afterSources (s := { s with legends := ls }) h false
  | planPeriod =>
    have aged : PlanLawful s.aged := h
    exact (aged.stands.runPlan true none).resolved
  | dwellExpiry => exact PlanLawful.afterClosures (s := s.closeDue) h false
  | outcome l t r j _ hr => exact PlanLawful.applyOutcome (s := s.setLine l _) h hdistinct hr j

/-- Settles O9: every move of the blocks keeps the laws, since each change of demand or darkness makes the run that restores
them; and no command leaves an empty displayable set, since MAP_SPEEDS's body has the length its count asks for. -/
theorem speedPlanLawsAlwaysHold : Obligations.SpeedPlanLawsAlwaysHold := by
  rintro s t ⟨hdistinct, ⟨hgantries, hspeeds⟩, hlawful⟩ hstep
  unfold step at hstep
  split at hstep
  · cases hstep
    exact ⟨hdistinct, ⟨hgantries, hspeeds⟩, hlawful⟩
  · rename_i i rest _
    have hheld : SpeedsHeld t := SpeedsHeld.exec (s := { s with pending := rest }) hspeeds hstep
    obtain ⟨t', ht', l, u, l', hu, rfl⟩ := exec_moves i { s with pending := rest }
    rw [ht'] at hstep
    cases hstep
    have distinct : PanelsDistinct u := PanelsDistinct.move hu hdistinct
    have lawful : PlanLawful u := PlanLawful.move hu hdistinct hspeeds hlawful
    exact ⟨distinct, ⟨hu.gantries_length hgantries, hheld⟩, lawful⟩

end Sys2Proof.Machine
end

section
/-! Aspect resolution: the priority of the sources, the restrictiveness orders with the pending entries, and the operator
legend (R110 to R118, R121, R122, R126, R127). -/

namespace Sys2Proof.Machine

open Sys2Proof

/-! ## A recomputed entry (R110, R114) -/

/-- R114: the entry of a FAILED panel is dark. -/
theorem State.newEntry_of_failed {s : State} {old : AspectEntry} (h : s.panelFailed old.panel = true) :
    s.newEntry old = ⟨old.panel, darkAspect old.panel.panel, .failed⟩ := if_pos h

/-- R110, R114: any other entry takes what its sources ask for, its cause RECOVERED from FAILED on until the desired aspect
changes. -/
theorem State.newEntry_of_working {s : State} {old : AspectEntry} (h : s.panelFailed old.panel = false) :
    s.newEntry old = ⟨old.panel, (s.sourceOf old.panel).1,
      if old.cause = .failed ∨ (old.cause = .recovered ∧ (s.sourceOf old.panel).1 = old.desired) then .recovered
      else (s.sourceOf old.panel).2⟩ := by
  unfold State.newEntry
  rw [if_neg (by simp [h])]
  by_cases hfailed : old.cause = .failed
  · simp [hfailed]
  · by_cases hsame : old.cause = .recovered ∧ (s.sourceOf old.panel).1 = old.desired
    · simp [hsame]
    · simp [hfailed, hsame]

theorem State.newEntry_panel (s : State) (old : AspectEntry) : (s.newEntry old).panel = old.panel := by
  cases h : s.panelFailed old.panel
  · rw [State.newEntry_of_working h]
  · rw [State.newEntry_of_failed h]

/-! ## The sources of a lane panel (R112, R113) -/

theorem State.sourceOf_lane {s : State} {p : PanelId} (h : p.panel ≠ 0) :
    s.sourceOf p = s.laneSource p.gantry p.panel := if_neg h

theorem State.laneSource_crossed {s : State} {g l : Nat} {e : CrossEntry} (h : crossAt s.crossMap g l = some e) :
    s.laneSource g l = (.cross, .closure e.id) := by
  simp only [State.laneSource, h]

theorem State.laneSource_arrowed {s : State} {g l : Nat} {e : ArrowEntry} (hcross : crossAt s.crossMap g l = none)
    (harrow : arrowAt s.arrowMap g l = some e) : s.laneSource g l = (e.arrow.aspect, .closure e.id) := by
  simp only [State.laneSource, hcross, harrow]

theorem State.laneSource_clear {s : State} {g l : Nat} (hcross : crossAt s.crossMap g l = none)
    (harrow : arrowAt s.arrowMap g l = none) :
    s.laneSource g l = (speedAspect s.corridorMax (s.planAt g).shown, (s.planAt g).cause.cause) := by
  simp only [State.laneSource, hcross, harrow]

/-! ## The sources of a message panel (R115 to R117) -/

theorem State.sourceOf_message {s : State} {p : PanelId} (h : p.panel = 0) : s.sourceOf p = s.messageSource p.gantry :=
  if_pos h

/-- R116: gantry g stands ahead of m, at most the legend reach away. -/
def Reaches (s : State) (m g : Nat) : Prop :=
  s.chainage m ≤ s.chainage g ∧ s.chainage g ≤ s.chainage m + s.params.legendReach

theorem State.reaches_iff (s : State) (m g : Nat) : s.reaches m g = true ↔ Reaches s m g := by
  unfold State.reaches Reaches
  rw [decide_eq_true_iff]
  omega

/-- R115, R116: the closure is announced at the message panel of gantry m. -/
def AnnouncedAt (s : State) (m : Nat) (c : Closure) : Prop :=
  (c.state = .arrows ∨ c.state = .dwell ∨ c.state = .closed) ∧ (Reaches s m c.first ∨ m ∈ c.taper)

theorem Closure.established_iff (c : Closure) :
    c.established = true ↔ c.state = .arrows ∨ c.state = .dwell ∨ c.state = .closed := by
  unfold Closure.established
  cases c.state <;> simp

theorem State.mem_announced {s : State} {m id : Nat} {fullOnly : Bool} :
    id ∈ s.announced m fullOnly
      ↔ ∃ c ∈ s.closures, AnnouncedAt s m c ∧ (fullOnly = true → c.full = true) ∧ c.id = id := by
  have selected : ∀ c : Closure, (c.established && (!fullOnly || c.full) && s.closureAhead m c) = true
      ↔ AnnouncedAt s m c ∧ (fullOnly = true → c.full = true) := by
    intro c
    simp only [State.closureAhead, AnnouncedAt, Bool.and_eq_true, Bool.or_eq_true, Closure.established_iff,
      State.reaches_iff, List.contains_iff_mem, Bool.not_eq_true']
    cases fullOnly <;> simp [and_right_comm]
  simp only [State.announced, List.mem_map, List.mem_filter, selected, and_assoc]

/-- The closure of least id among those that ask for a legend gives it. -/
theorem State.announced_least {s : State} {m : Nat} {fullOnly : Bool} {c : Closure} (hc : c ∈ s.closures)
    (hat : AnnouncedAt s m c) (hfull : fullOnly = true → c.full = true)
    (hleast : ∀ d ∈ s.closures, AnnouncedAt s m d → (fullOnly = true → d.full = true) → c.id ≤ d.id) :
    (s.announced m fullOnly).min? = some c.id := by
  refine List.min?_eq_some_iff.2 ⟨State.mem_announced.2 ⟨c, hc, hat, hfull, rfl⟩, fun id hid => ?_⟩
  obtain ⟨d, hd, hdat, hdfull, rfl⟩ := State.mem_announced.1 hid
  exact hleast d hd hdat hdfull

theorem State.announced_none {s : State} {m : Nat} {fullOnly : Bool}
    (h : ∀ c ∈ s.closures, AnnouncedAt s m c → ¬ (fullOnly = true → c.full = true)) :
    (s.announced m fullOnly).min? = none := by
  refine List.min?_eq_none_iff.2 (List.eq_nil_iff_forall_not_mem.2 fun id hid => ?_)
  obtain ⟨c, hc, hat, hfull, -⟩ := State.mem_announced.1 hid
  exact h c hc hat hfull

theorem State.messageSource_carriagewayClosed {s : State} {m id : Nat} (h : (s.announced m true).min? = some id) :
    s.messageSource m = (.message 4 true, .closure id) := by
  simp only [State.messageSource, h]

theorem State.messageSource_lanesClosed {s : State} {m id : Nat} (hfull : (s.announced m true).min? = none)
    (h : (s.announced m false).min? = some id) : s.messageSource m = (.message 3 true, .closure id) := by
  simp only [State.messageSource, hfull, h]

/-- R115: positions 3 to 6, where no closure is announced. -/
theorem State.messageSource_open {s : State} {m : Nat} (h : ∀ c ∈ s.closures, ¬ AnnouncedAt s m c) :
    s.messageSource m =
      if s.warnings.any (fun w => s.reaches m w.gantry) then (.message 1 true, .warning)
      else if s.legendAt m ≠ 0 then (.message (s.legendAt m) false, .operator)
      else if s.congested m then (.message 2 false, .plan)
      else (.message 0 false, .plan) := by
  have hnone : ∀ fullOnly, (s.announced m fullOnly).min? = none := fun _ =>
    State.announced_none fun c hc hat => absurd hat (h c hc)
  simp only [State.messageSource, hnone]

theorem State.warned_iff (s : State) (m : Nat) :
    s.warnings.any (fun w => s.reaches m w.gantry) = true ↔ ∃ w ∈ s.warnings, Reaches s m w.gantry := by
  simp only [List.any_eq_true, State.reaches_iff]

theorem State.congested_iff (s : State) (m : Nat) :
    s.congested m = true ↔ s.params.congestionBand ≤ (s.trafficAt m).band
      ∨ (m + 1 < s.params.gantryCount ∧ s.params.congestionBand ≤ (s.trafficAt (m + 1)).band) := by
  simp only [State.congested, Bool.or_eq_true, Bool.and_eq_true, decide_eq_true_eq]

/-- Settles O51: an entry is recomputed from its sources, and these are the positions of the lane panel's list and of the
message panel's. -/
theorem desiredAspectsFollowTheirPriority : Obligations.DesiredAspectsFollowTheirPriority := by
  refine fun s old => ⟨s.newEntry_panel old, fun hfailed => ?_, fun hworking => ?_, fun hlane => ?_, fun hmessage => ?_⟩
  · rw [State.newEntry_of_failed hfailed]
    exact ⟨rfl, rfl⟩
  · rw [State.newEntry_of_working hworking]
    exact ⟨rfl, rfl⟩
  · rw [State.sourceOf_lane hlane]
    refine ⟨fun e hcross => State.laneSource_crossed hcross, fun hcross =>
      ⟨fun e harrow => ?_, fun harrow => ?_⟩⟩
    · rw [State.laneSource_arrowed hcross harrow]
      cases e.arrow <;> rfl
    · rw [State.laneSource_clear hcross harrow]
      cases (s.planAt old.panel.gantry).cause <;> rfl
  · rw [State.sourceOf_message hmessage]
    refine ⟨fun c hc hat hfull hleast => ?_, fun hnofull => ⟨fun c hc hat hleast => ?_, fun hopen => ?_⟩⟩
    · exact State.messageSource_carriagewayClosed
        (State.announced_least hc hat (fun _ => hfull) fun d hd hdat hdfull => hleast d hd hdat (hdfull rfl))
    · refine State.messageSource_lanesClosed (State.announced_none fun d hd hdat hdfull => ?_)
        (State.announced_least hc hat (fun h => nomatch h) fun d hd hdat _ => hleast d hd hdat)
      have hnot : d.full = false := hnofull d hd hdat
      rw [hdfull rfl] at hnot
      cases hnot
    · rw [State.messageSource_open hopen]
      refine ⟨fun hwarned => if_pos ((s.warned_iff _).2 hwarned), fun hwarned hlegend => ?_,
        fun hwarned hlegend hcongested => ?_, fun hwarned hlegend hcongested => ?_⟩
      · rw [if_neg (mt (s.warned_iff _).1 hwarned), if_pos hlegend]
      · rw [if_neg (mt (s.warned_iff _).1 hwarned), if_neg (not_not_intro hlegend), if_pos ((s.congested_iff _).2 hcongested)]
      · rw [if_neg (mt (s.warned_iff _).1 hwarned), if_neg (not_not_intro hlegend),
          if_neg (mt (s.congested_iff _).1 hcongested)]

/-! ## Restrictiveness (R121, R122) -/

@[simp] theorem Aspect.moreRestrictive_speed (v w : Nat) :
    (Aspect.speed v).moreRestrictive (.speed w) = decide (v < w) := rfl

/-- R122: with the lanterns alike the position of the legend decides, and otherwise the lit lanterns. -/
@[simp] theorem Aspect.moreRestrictive_message (x y : Nat) (on on' : Bool) :
    (Aspect.message x on).moreRestrictive (.message y on') =
      if on = on' then decide (legendPosition x < legendPosition y) else on := rfl

theorem Aspect.moreRestrictive_self (a : Aspect) : a.moreRestrictive a = false := by
  cases a with
  | speed v => simp
  | message x on => simp
  | _ => rfl

/-- R122: the operator legends are equal in the order. -/
theorem legendPosition_operator {x : Nat} (h : 5 ≤ x) : legendPosition x = 4 := by
  obtain ⟨k, rfl⟩ := Nat.exists_eq_add_of_le' h
  rfl

/-- Where an arrow stands for either of the two, the lane order is strict (R121). -/
theorem laneAspects_pairwise {arrow : Aspect} (h : arrow = .arrowNear ∨ arrow = .arrowOff) (v : Nat) :
    [Aspect.cross, arrow, .speed v, .blank].Pairwise
      (fun a b => a.moreRestrictive b = true ∧ b.moreRestrictive a = false) := by
  rcases h with rfl | rfl <;> simp [Aspect.moreRestrictive, laneRank]

/-- R122: with the lanterns alike the legend order is strict, the operator legends in its fourth place. -/
theorem legends_pairwise {x : Nat} (h : 5 ≤ x) (on : Bool) :
    [4, 3, 1, x, 2, 0].Pairwise (fun a b => (Aspect.message a on).moreRestrictive (.message b on) = true
      ∧ (Aspect.message b on).moreRestrictive (.message a on) = false) := by
  have rising : ([4, 3, 1, x, 2, 0].map legendPosition).Pairwise (· < ·) := by
    change [1, 2, 3, legendPosition x, 5, 6].Pairwise (· < ·)
    rw [legendPosition_operator h]
    decide
  refine (List.pairwise_map.1 rising).imp fun {a b} hlt => ?_
  simp only [Aspect.moreRestrictive_message, if_true, decide_eq_true_eq, decide_eq_false_iff_not]
  exact ⟨hlt, Nat.lt_asymm hlt⟩

/-! ## Pending entries (R126, R127) -/

/-- A changed aspect calls for SAFETY over a confirmed one exactly where it is the more restrictive (R126). -/
theorem callsFor_confirmed_iff (c a : Aspect) : callsFor (some c) a = .safety ↔ a.moreRestrictive c = true := by
  cases h : a.moreRestrictive c <;> simp [callsFor, h]

theorem placeEntry_new {q : List PendEntry} {address : Nat} (h : ∀ e ∈ q, e.address ≠ address) (cls : EntryClass) :
    placeEntry q address cls = q ++ [⟨address, cls⟩] :=
  if_neg (by simpa [hasEntry] using h)

/-- An entry as the placing of a class for an address leaves it (R127). -/
def raised (address : Nat) (cls : EntryClass) (e : PendEntry) : PendEntry :=
  if e.address = address ∧ cls = .safety then ⟨address, .safety⟩ else e

theorem raised_address (address : Nat) (cls : EntryClass) (e : PendEntry) : (raised address cls e).address = e.address := by
  unfold raised
  split
  · rename_i h
    exact h.1.symm
  · rfl

theorem placeEntry_pending {q : List PendEntry} {address : Nat} (h : ∃ e ∈ q, e.address = address) (cls : EntryClass) :
    placeEntry q address cls = q.map (raised address cls) := by
  have hpending : hasEntry q address = true := hasEntry_iff.2 (List.mem_map.2 h)
  refine (if_pos hpending).trans (List.map_congr_left fun e _ => ?_)
  by_cases he : e.address = address
  · subst he
    rfl
  · simp [raised, he]

/-- Settles O52: the two orders are strict lists of ranks, and a placing maps the queue it finds the address in. -/
theorem restrictivenessClassesPendingEntries : Obligations.RestrictivenessClassesPendingEntries := by
  refine ⟨fun v w => ⟨laneAspects_pairwise (.inl rfl) v, laneAspects_pairwise (.inr rfl) v, rfl, rfl, by simp⟩,
    Aspect.moreRestrictive_self, fun x y => ⟨rfl, rfl⟩, fun on x y hx hy => ⟨?_, legends_pairwise hx on⟩,
    fun a c => ⟨rfl, callsFor_confirmed_iff c a⟩, fun q address cls => ⟨fun h => placeEntry_new h cls, fun h => ?_⟩⟩
  · simp [legendPosition_operator hx, legendPosition_operator hy]
  · rw [placeEntry_pending h]
    refine ⟨?_, fun k e he => ?_⟩
    · rw [List.map_map]
      exact List.map_congr_left fun e _ => raised_address address cls e
    · rw [List.getElem?_map, he]
      rfl

/-! ## OPERATOR_LEGEND (R118) -/

theorem State.hasMessage_iff (s : State) (g : Nat) :
    s.hasMessage g = true ↔ ∃ r, s.gantry? g = some r ∧ r.message.isSome = true := by
  unfold State.hasMessage
  cases s.gantry? g <;> simp

theorem legendLegal_iff (v : Byte) : legendLegal v.toNat = true ↔ v = 0 ∨ (5 ≤ v.toNat ∧ v.toNat ≤ 15) := by
  have hzero : v.toNat = 0 ↔ v = 0 := by
    simp [← BitVec.toNat_inj]
  simp [legendLegal, within, hzero]

/-- R118: the gantry is of the map and has a message panel. -/
def LegendPlace (s : State) (g : Byte) : Prop :=
  g.toNat < s.params.gantryCount ∧ ∃ r, s.gantry? g.toNat = some r ∧ r.message.isSome = true

/-- The checks of OPERATOR_LEGEND's two fields. -/
def legendChecks (s : State) (g v : Byte) : List FieldCheck :=
  [(1, decide (g.toNat < s.params.gantryCount) && s.hasMessage g.toNat), (2, legendLegal v.toNat)]

theorem legendPlace_iff (s : State) (g : Byte) :
    (decide (g.toNat < s.params.gantryCount) && s.hasMessage g.toNat) = true ↔ LegendPlace s g := by
  rw [Bool.and_eq_true, decide_eq_true_iff, State.hasMessage_iff]
  rfl

theorem legendChecks_unplaced {s : State} {g : Byte} (h : ¬ LegendPlace s g) (v : Byte) :
    firstBad (legendChecks s g v) = some 1 := by
  rw [legendChecks, Bool.eq_false_iff.2 (mt (legendPlace_iff s g).1 h)]
  rfl

theorem legendChecks_illegal {s : State} {g v : Byte} (hplace : LegendPlace s g)
    (hlegal : ¬ (v = 0 ∨ (5 ≤ v.toNat ∧ v.toNat ≤ 15))) : firstBad (legendChecks s g v) = some 2 := by
  rw [legendChecks, (legendPlace_iff s g).2 hplace, Bool.eq_false_iff.2 (mt (legendLegal_iff v).1 hlegal)]
  rfl

theorem legendChecks_pass {s : State} {g v : Byte} (hplace : LegendPlace s g)
    (hlegal : v = 0 ∨ (5 ≤ v.toNat ∧ v.toNat ≤ 15)) : firstBad (legendChecks s g v) = none := by
  rw [legendChecks, (legendPlace_iff s g).2 hplace, (legendLegal_iff v).2 hlegal]
  rfl

theorem operatorLegendEffect_refused {s : State} {g v : Byte} {n : Nat} (h : firstBad (legendChecks s g v) = some n) :
    operatorLegendEffect [g, v] s = badValue n s := by
  unfold legendChecks at h
  simp [operatorLegendEffect, u8At, h]

/-- The state with the code stored as the gantry's legend. -/
def State.storeLegend (s : State) (g v : Byte) : State := { s with legends := s.legends.set g.toNat v.toNat }

/-- Fields in range: the code held changes nothing, another is a change of sources without a change of demand. -/
theorem operatorLegendEffect_taken {s : State} {g v : Byte} (h : firstBad (legendChecks s g v) = none) :
    operatorLegendEffect [g, v] s = if v.toNat = s.legendAt g.toNat then accept [] s
      else accept [] ((s.storeLegend g v).afterSources false) := by
  unfold legendChecks at h
  simp [operatorLegendEffect, u8At, h, State.storeLegend]

/-- Settles O53: the fields are checked in order, a code other than the one held is stored, and in RUNNING a change of
sources without a run follows. -/
theorem operatorLegendIsStored : Obligations.OperatorLegendIsStored := by
  intro s tag g v hr
  have hlength : ([g, v] : Bytes).length ≤ 240 := by simp
  have htaken (hplace : LegendPlace s g) (hlegal : v = 0 ∨ (5 ≤ v.toNat ∧ v.toNat ≤ 15)) :=
    operatorLegendEffect_taken (legendChecks_pass (s := s.heard) hplace hlegal)
  refine ⟨fun hplace => ?_, fun hplace hlegal => ?_, fun hplace hlegal hsame => ?_, fun hplace hlegal hnew hs => ?_,
    fun hplace hlegal hnew hrun => ?_⟩
  · exact OnlyAnswers.of_effect (k := .operatorLegend) hr hlength rfl (by simp)
      (operatorLegendEffect_refused (legendChecks_unplaced (s := s.heard) hplace v))
  · exact OnlyAnswers.of_effect (k := .operatorLegend) hr hlength rfl (by simp)
      (operatorLegendEffect_refused (legendChecks_illegal (s := s.heard) hplace hlegal))
  · exact OnlyAnswers.of_effect (k := .operatorLegend) hr hlength rfl (by simp)
      ((htaken hplace hlegal).trans (if_pos hsame))
  · have heffect := (htaken hplace hlegal).trans (if_neg hnew)
    rw [State.afterSources_stopped (s := s.heard.storeLegend g v) hs] at heffect
    exact Acts.of_effect (k := .operatorLegend) (rs := []) hr hlength rfl (by simp) heffect rfl hr.1 rfl
  · have heffect := (htaken hplace hlegal).trans (if_neg hnew)
    obtain ⟨ends, hlink, hset⟩ := State.afterSources_taken (s.heard.storeLegend g v) false hrun
    have hframe := State.afterSources_frame (s.heard.storeLegend g v) false
    generalize (s.heard.storeLegend g v).afterSources false = t at *
    have hset : SourcesTaken (s.storeLegend g v) { t with link := s.link } (false = true) ends :=
      hset.setLink s.link s.link
    obtain ⟨-, hplan, haspects, hhanded, hends⟩ := hset
    have hplan : t.plan = s.plan := hplan (fun h => nomatch h)
    refine ⟨{ t with link := s.link }, ends, Acts.of_effect (k := .operatorLegend) hr hlength rfl (by simp) heffect hlink
      ((congrArg State.nrstLow hframe :).trans hr.1) rfl, (congrArg State.legends hframe :), ?_, hhanded, hends, ?_⟩
    · exact haspects.trans (by rw [hplan]; rfl)
    · have hrest := congrArg (fun x : State => { x with legends := s.legends, link := s.link }) hframe
      have hkept : ({ t with plan := s.plan } : State) = t := by rw [← hplan]
      rw [← hkept]
      exact hrest

end Sys2Proof.Machine
end

section
/-! The bounds of the link port and of the history capture under every command (R149, R159, R160, R162, R165, R166). -/

namespace Sys2Proof.Machine

open Sys2Proof

/-! ## The bounds of the link port -/

/-- R166: a GANTRY_SHOWN. -/
def Report.isShown : Report → Bool
  | .gantryShown _ => true
  | _ => false

/-- `LinkBounded`, bound by bound. -/
structure Link.Bounded (l : Link) : Prop where
  replies : l.replies.length ≤ 4
  queue : l.urgent.length + l.routine.length ≤ 32
  shown : (l.routine.filter Report.isShown).Nodup
  frames : l.frameDiscards ≤ 65535
  requests : l.requestDiscards ≤ 65535

theorem linkBounded_iff (s : State) : LinkBounded s ↔ s.link.Bounded :=
  ⟨fun ⟨hreplies, hqueue, hshown, hframes, hrequests⟩ => ⟨hreplies, hqueue, hshown, hframes, hrequests⟩,
    fun h => ⟨h.replies, h.queue, h.shown, h.frames, h.requests⟩⟩

theorem countUp_le (n : Nat) : countUp n ≤ 65535 := Nat.min_le_right _ _

theorem Link.hasRoom_iff (l : Link) : l.hasRoom = true ↔ l.urgent.length + l.routine.length < 32 := decide_eq_true_iff

/-- The second port meets every bound the first meets, and holds no more replies. An effect between the test for room in
the reply FIFO and the placing of its reply is of this kind (R160, R161). -/
def Link.Keeps (l l' : Link) : Prop := l'.replies.length ≤ l.replies.length ∧ (l.Bounded → l'.Bounded)

theorem Link.Keeps.refl (l : Link) : l.Keeps l := ⟨Nat.le_refl _, id⟩

theorem Link.Keeps.trans {k l m : Link} (h : k.Keeps l) (h' : l.Keeps m) : k.Keeps m :=
  ⟨Nat.le_trans h'.1 h.1, fun hk => h'.2 (h.2 hk)⟩

theorem Link.Keeps.of_eq {l l' : Link} (h : l' = l) : l.Keeps l' := h ▸ .refl l

/-- R171: what a reset leaves meets every bound. -/
theorem Link.Keeps.rest (l : Link) : l.Keeps Link.rest :=
  ⟨Nat.zero_le _, fun _ => by constructor <;> simp [Link.rest]⟩

/-! ## Placing a report (R165, R166) -/

/-- An urgent report goes where there is room, or in the room of a routine one. -/
theorem Link.Keeps.placeUrgent (l : Link) (r : Report) : l.Keeps (l.placeUrgent r) := by
  unfold Link.placeUrgent
  split
  · rename_i hroom
    have hroom := l.hasRoom_iff.1 hroom
    exact ⟨Nat.le_refl _, fun h => { h with queue := by simp; omega }⟩
  · split
    · rename_i oldest rest hroutine
      refine ⟨Nat.le_refl _, fun h => { h with queue := ?_, shown := ?_ }⟩
      · have hqueue := h.queue
        simp only [hroutine, List.length_cons] at hqueue
        simp only [List.length_append, List.length_singleton]
        omega
      · exact h.shown.sublist ((hroutine ▸ List.sublist_cons_self oldest rest).filter _)
    · exact ⟨Nat.le_refl _, fun h => { h with }⟩

/-- A routine report goes where there is room; a GANTRY_SHOWN joins none for its gantry. -/
theorem Link.Keeps.placeRoutine {l : Link} {r : Report} (hr : r.isShown = true → r ∉ l.routine) :
    l.Keeps (l.placeRoutine r) := by
  unfold Link.placeRoutine
  split
  · rename_i hroom
    have hroom := l.hasRoom_iff.1 hroom
    refine ⟨Nat.le_refl _, fun h => { h with queue := by simp; omega, shown := ?_ }⟩
    rw [List.filter_append, List.nodup_append]
    refine ⟨h.shown, (List.pairwise_singleton _ r).filter _, fun x hx y hy => ?_⟩
    obtain ⟨hy, hshown⟩ := List.mem_filter.1 hy
    obtain rfl := List.mem_singleton.1 hy
    rintro rfl
    exact hr hshown (List.mem_filter.1 hx).1
  · exact ⟨Nat.le_refl _, fun h => { h with }⟩

theorem Link.Keeps.askShown (l : Link) (g : Nat) : l.Keeps (l.askShown g) := by
  unfold Link.askShown
  split
  · exact .refl l
  · rename_i hq
    exact .placeRoutine fun _ hmem => hq (List.contains_iff_mem.2 hmem)

theorem Link.Keeps.place (l : Link) (r : Report) : l.Keeps (l.place r) := by
  cases r with
  | gantryShown g => exact .askShown l g
  | warningState clock event w => exact .placeRoutine fun h => nomatch h
  | restart | triggerFired | panelHealth | closureState | lineState | historyFrozen => exact .placeUrgent l _

theorem Link.Keeps.placeAll (l : Link) (rs : List Report) : l.Keeps (rs.foldl Link.place l) := by
  induction rs generalizing l with
  | nil => exact .refl l
  | cons r rs ih => exact (Link.Keeps.place l r).trans (ih _)

theorem Link.Keeps.of_placed {l l' : Link} (h : ∃ rs : List Report, l' = rs.foldl Link.place l) : l.Keeps l' := by
  obtain ⟨rs, rfl⟩ := h
  exact .placeAll l rs

/-! ## The transmitter's choice (R163) -/

/-- What starts leaves its queue, and nothing joins one. -/
theorem Link.Keeps.choose (now : Clock) (ps : List PanelRec) (l : Link) : l.Keeps (l.choose now ps) := by
  unfold Link.choose
  split
  · rename_i f rest hreplies
    have hshorter : rest.length ≤ l.replies.length := by simp [hreplies]
    exact ⟨hshorter, fun h => { h with replies := Nat.le_trans hshorter h.replies }⟩
  · split
    · exact .refl l
    · split
      · rename_i r rest hurgent
        refine ⟨Nat.le_refl _, fun h => { h with queue := ?_ }⟩
        have hqueue := h.queue
        simp only [hurgent, List.length_cons] at hqueue
        exact Nat.le_trans (Nat.add_le_add_right (Nat.le_succ _) _) hqueue
      · split
        · rename_i hurgent r rest hroutine
          refine ⟨Nat.le_refl _, fun h => { h with queue := ?_, shown := ?_ }⟩
          · have hqueue := h.queue
            simp only [hroutine, List.length_cons] at hqueue
            exact Nat.le_trans (Nat.le_succ _) hqueue
          · exact h.shown.sublist ((hroutine ▸ List.sublist_cons_self r rest).filter _)
        · exact .refl l

theorem State.transmit_keeps (s : State) : s.link.Keeps s.transmit.link := by
  unfold State.transmit
  split
  · exact .refl _
  · exact .choose _ _ _

/-! ## What the blocks do to the link port -/

theorem State.afterSources_keeps (s : State) (demand : Bool) : s.link.Keeps (s.afterSources demand).link :=
  .of_placed (s.afterSources_link demand)

theorem State.afterClosures_keeps (s : State) (demand : Bool) : s.link.Keeps (s.afterClosures demand).link :=
  .of_placed (s.afterClosures_link demand)

theorem State.freeze_keeps (s : State) (source : FreezeSource) : s.link.Keeps (s.freeze source).link := by
  unfold State.freeze
  split
  · exact .refl _
  · exact .place _ _

theorem State.placeWarning_link (s : State) (p g : Nat) : (s.placeWarning p g).1.link = s.link := by
  unfold State.placeWarning
  (repeat' split) <;> rfl

/-- A firing warns, reports and freezes, each if its program says so (R54). -/
theorem State.fire_preserves {P : State → Prop} {s : State} {g : Nat} {f : Firing} (h : P s)
    (hwarn : P (s.placeWarning f.program g).1) (hreport : ∀ t r, P t → P (t.report r))
    (hfreeze : ∀ t source, P t → P (t.freeze source)) : P (s.fire g f) := by
  unfold State.fire
  split
  · exact h
  · rename_i prog _
    dsimp only
    have warned : P (if prog.actions.warn then s.placeWarning f.program g else (s, Placement.none)).1 := by
      split
      · exact hwarn
      · exact h
    generalize (if prog.actions.warn then s.placeWarning f.program g else (s, Placement.none)) = w at *
    have reported (r : Report) : P (if prog.actions.report then w.1.report r else w.1) := by
      split
      · exact hreport _ r warned
      · exact warned
    split
    · exact hfreeze _ _ (reported _)
    · exact reported _

theorem State.fire_keeps (s : State) (g : Nat) (f : Firing) : s.link.Keeps (s.fire g f).link :=
  State.fire_preserves (P := fun t => s.link.Keeps t.link) (.refl _) (.of_eq (s.placeWarning_link _ _))
    (fun _ r h => h.trans (.place _ r)) (fun t source h => h.trans (t.freeze_keeps source))

theorem State.fires_keeps (g : Nat) (fs : List Firing) (s : State) :
    s.link.Keeps (fs.foldl (fun st f => st.fire g f) s).link := by
  induction fs generalizing s with
  | nil => exact .refl _
  | cons f fs ih => exact (s.fire_keeps g f).trans (ih _)

theorem State.announceWarning_keeps (s : State) (before : List Warning) (g : Nat) :
    s.link.Keeps (s.announceWarning before g).link := by
  unfold State.announceWarning
  split
  · exact .place _ _
  · exact .refl _

theorem State.updateHold_keeps (s : State) (evs : List Evaluated) (g : Nat) : s.link.Keeps (s.updateHold evs g).link := by
  unfold State.updateHold
  split
  · exact .refl _
  · split
    · exact .place _ _
    · exact .refl _

theorem State.evaluateGantry_keeps (s : State) (g : Nat) : s.link.Keeps (s.evaluateGantry g).link :=
  ((State.fires_keeps g _ { s with insts := updateInsts s.insts (s.evaluations g) }).trans
    (State.announceWarning_keeps _ _ _)).trans (State.updateHold_keeps _ _ _)

theorem State.applyDetector_keeps (s : State) (b : Bytes) : s.link.Keeps (s.applyDetector b).link := by
  have read : s.link.Keeps ((s.recordTraffic b).evaluateGantry (u8At b 0)).link :=
    (s.recordTraffic b).evaluateGantry_keeps _
  unfold State.applyDetector
  dsimp only
  split
  · exact read.trans (State.afterSources_keeps _ _)
  · exact read

theorem State.disableProgram_keeps (s : State) (p : Nat) : s.link.Keeps (s.disableProgram p).link := .placeAll _ _

theorem State.reportHealth_keeps (s : State) (old new : PanelRec) (o : TxOutcome) :
    s.link.Keeps (s.reportHealth old new o).link := by
  unfold State.reportHealth
  split
  · exact .place _ _
  · exact .refl _

theorem State.askShown_keeps (s : State) (old new : PanelRec) : s.link.Keeps (s.askShown old new).link := by
  unfold State.askShown
  split
  · exact .refl _
  · exact .place _ _

theorem State.applyOutcome_keeps (s : State) (l : LineId) (t : InFlight) (j : Judged) (old : PanelRec) :
    s.link.Keeps (s.applyOutcome l t j old).link := by
  have told (new : PanelRec) :
      s.link.Keeps ((State.retry { s.recordChange old new j.outcome with
        panels := putPanel (s.recordChange old new j.outcome).panels new } l t j.outcome new).reportHealth
          old new j.outcome).link :=
    (Link.Keeps.of_eq (by simp)).trans (State.reportHealth_keeps _ _ _ _)
  unfold State.applyOutcome
  dsimp only
  refine Link.Keeps.trans ?_ (State.askShown_keeps _ _ _)
  split
  · exact (told _).trans (State.afterSources_keeps _ _)
  · exact (told _).trans (State.afterClosures_keeps _ _)

/-- A move of the blocks places reports, or clears the port. -/
theorem BlockMove.keeps {s t : State} (hm : BlockMove s t) : s.link.Keeps t.link := by
  cases hm with
  | stays | mapParams | mapGantry | mapSpeeds | mapBands | start | triggerSet | enableStopped | enableRunning | rearm
  | historyResume | lineQuiesce | lineResume | clockAdvance | refresh | endUnheld | sense => exact .refl _
  | stop | establishLimit | planPeriod => exact .placeAll _ _
  | detector b => exact s.applyDetector_keeps b
  | disableQuiet p => exact s.disableProgram_keeps p
  | disable p => exact (s.disableProgram_keeps p).trans (State.afterSources_keeps _ _)
  | warningClear w => exact (Link.Keeps.place _ _).trans (State.afterSources_keeps (s.endWarning w .cleared) _)
  | closureSet b => exact (Link.Keeps.place _ _).trans (State.afterClosures_keeps (s.createClosure (newClosure s b)) _)
  | closureEnd c => exact (Link.Keeps.place _ _).trans (State.afterClosures_keeps (s.endRequested c) _)
  | closureRelease c => exact (Link.Keeps.place _ _).trans (State.afterClosures_keeps (s.enterReleasing c) _)
  | operatorCap v => exact State.afterSources_keeps { s with operatorCap := v } _
  | operatorLegend ls => exact State.afterSources_keeps { s with legends := ls } _
  | freeze source => exact s.freeze_keeps source
  | dwellExpiry => exact (Link.Keeps.placeAll _ _).trans (State.afterClosures_keeps s.closeDue _)
  | transactionStart l => exact .of_eq (s.startTransaction_link l)
  | phase l before after => exact .of_eq (s.advancePhase_link l before after)
  | outcome l t r j =>
    exact State.applyOutcome_keeps (s.setLine l { s.lines.get l with mode := .gap, inFlight := none }) l t j r
  | endGap l => exact .of_eq (s.endGap_link l)
  | supply | supplyBack => exact .place _ _
  | hold | begin | beginClear => exact .rest _

theorem requestEffect_keeps (k : RequestKind) (b : Bytes) (s : State) : s.link.Keeps (requestEffect k b s).1.link := by
  cases k with
  | identify | status => exact .refl _
  | reset => exact ⟨Nat.le_refl _, fun h => { h with }⟩
  | mapParams => exact (mapParamsEffect_moves b s).keeps
  | mapGantry => exact (mapGantryEffect_moves b s).keeps
  | mapSpeeds => exact (mapSpeedsEffect_moves b s).keeps
  | mapBands => exact (mapBandsEffect_moves b s).keeps
  | start => exact (startEffect_moves b s).keeps
  | stop => exact (stopEffect_moves b s).keeps
  | detector => exact (detectorEffect_moves b s).keeps
  | triggerSet => exact (triggerSetEffect_moves b s).keeps
  | triggerEnable => exact (triggerEnableEffect_moves b s).keeps
  | triggerDisable => exact (triggerDisableEffect_moves b s).keeps
  | triggerRearm => exact (triggerRearmEffect_moves b s).keeps
  | warningClear => exact (warningClearEffect_moves b s).keeps
  | closureSet => exact (closureSetEffect_moves b s).keeps
  | closureRelease => exact (closureReleaseEffect_moves b s).keeps
  | operatorCap => exact (operatorCapEffect_moves b s).keeps
  | operatorLegend => exact (operatorLegendEffect_moves b s).keeps
  | closureQuery => exact .of_eq (congrArg State.link (closureQueryEffect_state b s))
  | gantryQuery => exact .of_eq (congrArg State.link (gantryQueryEffect_state b s))
  | panelQuery => exact .of_eq (congrArg State.link (panelQueryEffect_state b s))
  | historyRead => exact .of_eq (congrArg State.link (historyReadEffect_state b s))
  | historyFreeze => exact s.freeze_keeps .request
  | historyResume => exact .refl _
  | lineQuiesce => exact (changeLine_moves b s quiesceLine .lineQuiesce).keeps
  | lineResume => exact (changeLine_moves b s resumeLine .lineResume).keeps

/-! ## Receiving (R157 to R161) -/

/-- A count that goes up stops at 65535 (R159). -/
theorem State.discardFrame_keeps (s : State) : s.link.Keeps s.discardFrame.link :=
  ⟨Nat.le_refl _, fun h => { h with frames := countUp_le _ }⟩

theorem State.setReceiver_keeps (s : State) (r : Receiver) : s.link.Keeps (s.setReceiver r).link :=
  ⟨Nat.le_refl _, fun h => { h with }⟩

/-- R160, R162: a reply is placed only where the FIFO holds fewer than four. -/
theorem Link.Bounded.placeReply {l : Link} (h : l.Bounded) (hroom : l.replies.length < 4) (f : Frame) :
    (l.placeReply f).Bounded := by
  refine { h with replies := ?_ }
  rw [Link.placeReply, List.length_append]
  exact hroom

theorem Link.Bounded.arrive {s : State} (h : s.link.Bounded) (body : Bytes) {act : State → State × Frame}
    (hact : ∀ r : State, r.link.Keeps (act r).1.link) : (s.arrive body act).link.Bounded := by
  have heard : { s.link with rx := .hunt }.Bounded := { h with }
  unfold State.arrive
  split
  · exact h
  · split
    · exact s.discardFrame_keeps.2 h
    · dsimp only
      split
      · exact heard
      · split
        · exact { heard with requests := countUp_le _ }
        · rename_i hroom
          obtain ⟨hreplies, hbounds⟩ := hact { s with link := { s.link with rx := .hunt } }
          have hroom : s.link.replies.length < 4 := Nat.lt_of_not_le hroom
          exact (State.transmit_keeps _).2 ((hbounds heard).placeReply (Nat.lt_of_le_of_lt hreplies hroom) _)

theorem Link.Bounded.take {s : State} (h : s.link.Bounded) (k : RequestKind) (tag : Byte) (body : Bytes) :
    (s.take k tag body (requestEffect k)).link.Bounded := by
  refine h.arrive body fun r => ?_
  dsimp only
  split
  · exact requestEffect_keeps k body r
  · exact .refl _

theorem Link.Bounded.arriveFrame {s : State} (h : s.link.Bounded) (kind tag : Byte) (body : Bytes) :
    (s.arriveFrame kind tag body).link.Bounded := by
  unfold State.arriveFrame
  split
  · exact h.take _ tag body
  · exact h.arrive body fun r => .refl _

theorem State.headerChar_keeps (s : State) (kept : Bytes) (c : Byte) : s.link.Keeps (s.headerChar kept c).link := by
  unfold State.headerChar
  split
  · split
    · exact s.discardFrame_keeps
    · exact s.setReceiver_keeps _
  · exact s.setReceiver_keeps _
  · exact s.setReceiver_keeps _
  · exact s.setReceiver_keeps _

theorem State.bodyChar_keeps (s : State) (head : FrameHead) (kept : Bytes) (c : Byte) :
    s.link.Keeps (s.bodyChar head kept c).link := by
  unfold State.bodyChar
  split
  · exact s.setReceiver_keeps _
  · exact s.setReceiver_keeps _

theorem Link.Bounded.checkChar {s : State} (h : s.link.Bounded) (head : FrameHead) (body : Bytes) (first : Option Byte)
    (c : Byte) : (s.checkChar head body first c).link.Bounded := by
  unfold State.checkChar
  split
  · exact (s.setReceiver_keeps _).2 h
  · split
    · exact h.arriveFrame _ _ _
    · exact s.discardFrame_keeps.2 h

theorem Link.Bounded.receive {s : State} (h : s.link.Bounded) (c : Byte) : (s.receive c).link.Bounded := by
  unfold State.receive
  split
  · exact h
  · split
    · split
      · exact (s.setReceiver_keeps _).2 h
      · exact h
    · exact (s.headerChar_keeps _ c).2 h
    · exact (s.bodyChar_keeps _ _ c).2 h
    · exact h.checkChar _ _ _ c

/-! ## Events -/

theorem State.dropFrame_keeps (s : State) : s.link.Keeps s.dropFrame.link := by
  unfold State.dropFrame
  split
  · exact .refl _
  · split
    · exact s.discardFrame_keeps
    · exact .refl _

theorem State.discardRequest_keeps (s : State) : s.link.Keeps s.discardRequest.link := by
  unfold State.discardRequest
  split
  · exact .refl _
  · exact ⟨Nat.le_refl _, fun h => { h with requests := countUp_le _ }⟩

theorem State.restart_keeps (s : State) (cause : ResetCause) : s.link.Keeps (s.restart cause).link := by
  unfold State.restart
  refine Link.Keeps.trans ?_ (State.transmit_keeps _)
  exact (Link.Keeps.place _ _).trans (.placeAll _ _)

/-- A port cleared, and then begun again. -/
theorem State.cleared_restart_keeps (l : Link) {s : State} (h : s.link = Link.rest) (cause : ResetCause) :
    l.Keeps (s.restart cause).link :=
  (Link.Keeps.rest l).trans (h ▸ s.restart_keeps cause)

theorem State.endFrame_keeps (s : State) : s.link.Keeps s.endFrame.link := by
  unfold State.endFrame
  split
  · exact .refl _
  · split
    · exact State.cleared_restart_keeps _ rfl _
    · have freed : s.link.Keeps { s.link with tx := none } := ⟨Nat.le_refl _, fun h => { h with }⟩
      exact freed.trans (State.transmit_keeps _)

theorem State.expireDwell_keeps (s : State) (id : Nat) : s.link.Keeps (s.expireDwell id).link := by
  unfold State.expireDwell
  split
  · rename_i h
    exact (BlockMove.dwellExpiry h.1).keeps.trans (State.transmit_keeps _)
  · exact .refl _

theorem State.expireEstablish_keeps (s : State) (id : Nat) : s.link.Keeps (s.expireEstablish id).link := by
  unfold State.expireEstablish
  split
  · rename_i h
    exact (BlockMove.establishLimit h.1).keeps.trans (State.transmit_keeps _)
  · exact .refl _

theorem State.endIn_keeps (s : State) (l : LineId) (phase : Phase) (judgeBy : InFlight → Nat → Judged) :
    s.link.Keeps (s.endIn l phase judgeBy).link := by
  unfold State.endIn
  split
  · exact .refl _
  · split
    · unfold State.endTransaction
      dsimp only
      split
      · exact .refl _
      · exact (State.applyOutcome_keeps (s.setLine l { s.lines.get l with mode := .gap, inFlight := none }) l _ _ _).trans
          (State.transmit_keeps _)
    · exact .refl _

theorem State.followSense_keeps (s : State) (l : LineId) (level : Nat) : s.link.Keeps (s.followSense l level).link := by
  have crossed (v : Supply) : s.link.Keeps (State.crossSupply { s with sense := s.sense.set l level } l v).link :=
    .place _ _
  unfold State.followSense
  dsimp only
  split
  · exact .refl _
  · split
    · split
      · exact (crossed .low).trans (State.transmit_keeps _)
      · exact .refl _
    · split
      · refine Link.Keeps.trans ?_ (State.transmit_keeps _)
        split
        · exact crossed .normal
        · exact crossed .normal
      · exact .refl _

/-! ## Every command -/

theorem Link.Keeps.ite {l : Link} {s t : State} {p : Prop} [Decidable p] (ht : p → l.Keeps t.link) (hs : l.Keeps s.link) :
    l.Keeps (if p then t else s).link := by
  split
  · exact ht ‹_›
  · exact hs

/-- A request takes its place in the FIFO where there is room; no other command adds a reply. -/
theorem Link.Bounded.exec {i : Instr} {s t : State} (h : s.link.Bounded) (ht : exec i s = .next t) : t.link.Bounded := by
  cases i with
  | identify tag b | status tag b | reset tag b | mapParams tag b | mapGantry tag b | mapSpeeds tag b | mapBands tag b
  | start tag b | stop tag b | detector tag b | triggerSet tag b | triggerEnable tag b | triggerDisable tag b
  | triggerRearm tag b | warningClear tag b | closureSet tag b | closureRelease tag b | closureQuery tag b
  | operatorCap tag b | operatorLegend tag b | gantryQuery tag b | panelQuery tag b | historyFreeze tag b
  | historyRead tag b | historyResume tag b | lineQuiesce tag b | lineResume tag b =>
    exact Host.Outcome.next.inj ht ▸ h.take _ tag b
  | unknownKind kind tag b => exact Host.Outcome.next.inj ht ▸ h.arriveFrame kind tag b
  | hostCharacterReceived c => exact Host.Outcome.next.inj ht ▸ h.receive c
  | requestDiscard => exact Host.Outcome.next.inj ht ▸ s.discardRequest_keeps.2 h
  | frameDiscard =>
    obtain rfl := Host.Outcome.next.inj ht
    split
    · exact h
    · exact s.discardFrame_keeps.2 h
  | framingError | interByteGapExpiry => exact Host.Outcome.next.inj ht ▸ s.dropFrame_keeps.2 h
  | frameSent => exact Host.Outcome.next.inj ht ▸ s.endFrame_keeps.2 h
  | powerOn | supplyDip => exact Host.Outcome.next.inj ht ▸ (State.cleared_restart_keeps s.link rfl _).2 h
  | nrstAssert => exact Host.Outcome.next.inj ht ▸ (BlockMove.hold (s := s)).keeps.2 h
  | nrstRelease =>
    exact Host.Outcome.next.inj ht ▸ (Link.Keeps.ite (fun _ => State.cleared_restart_keeps s.link rfl _) (.refl _)).2 h
  | corridorClockAdvance =>
    exact Host.Outcome.next.inj ht ▸ (Link.Keeps.ite (fun hr => (BlockMove.clockAdvance hr).keeps) (.refl _)).2 h
  | planPeriodExpiry =>
    exact Host.Outcome.next.inj ht ▸
      (Link.Keeps.ite (fun hr => (BlockMove.planPeriod hr.1).keeps.trans (State.transmit_keeps _)) (.refl _)).2 h
  | dwellExpiry id => exact Host.Outcome.next.inj ht ▸ (s.expireDwell_keeps id).2 h
  | establishLimitExpiry id => exact Host.Outcome.next.inj ht ▸ (s.expireEstablish_keeps id).2 h
  | refreshDue l =>
    exact Host.Outcome.next.inj ht ▸ (Link.Keeps.ite (fun hr => (BlockMove.refresh l _ hr).keeps) (.refl _)).2 h
  | transactionStart l => exact Host.Outcome.next.inj ht ▸ (BlockMove.transactionStart l).keeps.2 h
  | requestSent l => exact Host.Outcome.next.inj ht ▸ (BlockMove.phase l .send .wait).keeps.2 h
  | replyBegun l => exact Host.Outcome.next.inj ht ▸ (BlockMove.phase l .wait .receive).keeps.2 h
  | replyComplete l | replyCharacterTimeout l | replyWindowEnd l =>
    exact Host.Outcome.next.inj ht ▸ (s.endIn_keeps l _ _).2 h
  | gapEnd l => exact Host.Outcome.next.inj ht ▸ (BlockMove.endGap l).keeps.2 h
  | supplyFallLow l level | supplyRiseNormal l level => exact Host.Outcome.next.inj ht ▸ (s.followSense_keeps l level).2 h

theorem Link.Bounded.step {s t : State} (h : s.link.Bounded) (ht : step s = .next t) : t.link.Bounded := by
  unfold Sys2Proof.Machine.step at ht
  split at ht
  · exact Host.Outcome.next.inj ht ▸ h
  · rename_i i rest _
    exact Link.Bounded.exec (s := { s with pending := rest }) h ht

/-! ## The bounds of the history capture (R149) -/

theorem HistoryBounded.same {s t : State} (h : HistoryBounded s) (e : t.history = s.history) : HistoryBounded t := by
  unfold HistoryBounded
  rw [e]
  exact h

theorem HistoryBounded.of_empty {s : State} (e : s.history = History.empty) : HistoryBounded s := by
  unfold HistoryBounded
  rw [e]
  exact ⟨Nat.zero_le _, Nat.zero_le _⟩

/-- At 64 records the oldest makes room, and the count wraps. -/
theorem History.append_bounded {h : History} (hring : h.ring.length ≤ 64) (r : HistRec) :
    (h.append r).ring.length ≤ 64 ∧ (h.append r).written ≤ 65535 := by
  refine ⟨?_, Nat.le_of_lt_succ (Nat.mod_lt _ (by decide))⟩
  unfold History.append
  dsimp only
  split
  · rename_i hroom
    rw [List.length_append]
    exact hroom
  · rw [List.length_append, List.length_drop, List.length_singleton]
    omega

theorem HistoryBounded.recordChange {s : State} (h : HistoryBounded s) (old new : PanelRec) (o : TxOutcome) :
    HistoryBounded (s.recordChange old new o) := by
  unfold State.recordChange
  split
  · split
    · exact h
    · unfold HistoryBounded History.record
      dsimp only
      split
      · exact h
      · exact History.append_bounded h.1 _
  · exact h

/-- A freeze marks the capture and leaves what it holds (R150). -/
theorem HistoryBounded.freeze {s : State} (h : HistoryBounded s) (source : FreezeSource) :
    HistoryBounded (s.freeze source) := by
  unfold State.freeze
  split
  · exact h
  · exact h

theorem State.placeWarning_history (s : State) (p g : Nat) : (s.placeWarning p g).1.history = s.history := by
  unfold State.placeWarning
  (repeat' split) <;> rfl

theorem HistoryBounded.fire {s : State} (h : HistoryBounded s) (g : Nat) (f : Firing) : HistoryBounded (s.fire g f) :=
  State.fire_preserves h (h.same (s.placeWarning_history _ _)) (fun _ _ ht => ht) (fun _ source ht => ht.freeze source)

theorem HistoryBounded.fires (g : Nat) (fs : List Firing) {s : State} (h : HistoryBounded s) :
    HistoryBounded (fs.foldl (fun st f => st.fire g f) s) := by
  induction fs generalizing s with
  | nil => exact h
  | cons f fs ih => exact ih (h.fire g f)

theorem HistoryBounded.evaluateGantry {s : State} (h : HistoryBounded s) (g : Nat) :
    HistoryBounded (s.evaluateGantry g) :=
  (HistoryBounded.fires g ((s.evaluations g).filterMap (·.firing))
    (s := { s with insts := updateInsts s.insts (s.evaluations g) }) h).same (by simp [State.evaluateGantry])

theorem HistoryBounded.applyDetector {s : State} (h : HistoryBounded s) (b : Bytes) :
    HistoryBounded (s.applyDetector b) := by
  have read : HistoryBounded ((s.recordTraffic b).evaluateGantry (u8At b 0)) :=
    HistoryBounded.evaluateGantry (s := s.recordTraffic b) h _
  unfold State.applyDetector
  dsimp only
  split
  · exact read.same (State.afterSources_history _ _)
  · exact read

theorem HistoryBounded.applyOutcome {s : State} (h : HistoryBounded s) (l : LineId) (t : InFlight) (j : Judged)
    (old : PanelRec) : HistoryBounded (s.applyOutcome l t j old) := by
  refine (h.recordChange old (updatePanel s.params (s.lines.get l).supply s.clock j old) j.outcome).same ?_
  unfold State.applyOutcome
  dsimp only
  split <;> simp

/-- Outcomes write records, firings and requests freeze, and a reset by supply empties the capture. -/
theorem HistoryBounded.move {s t : State} (hm : BlockMove s t) (h : HistoryBounded s) : HistoryBounded t := by
  cases hm with
  | stays | mapParams | mapGantry | mapSpeeds | mapBands | start | stop | triggerSet | enableStopped | enableRunning
  | disableQuiet | rearm | lineQuiesce | lineResume | clockAdvance | planPeriod | establishLimit | refresh | endUnheld | sense
  | supply | supplyBack | hold | begin => exact h
  | detector b => exact h.applyDetector b
  | disable | warningClear | operatorCap | operatorLegend => exact h.same (State.afterSources_history _ _)
  | closureSet | closureEnd | closureRelease | dwellExpiry => exact h.same (State.afterClosures_history _ _)
  | freeze source => exact h.freeze source
  | historyResume | beginClear => exact .of_empty rfl
  | transactionStart l => exact h.same (s.startTransaction_history l)
  | phase l before after => exact h.same (s.advancePhase_history l before after)
  | outcome l t r j =>
    exact HistoryBounded.applyOutcome (s := s.setLine l { s.lines.get l with mode := .gap, inFlight := none }) h l t j r
  | endGap l => exact h.same (s.endGap_history l)

theorem historyBounded_kept : KeptByEveryStep HistoryBounded :=
  keptByEveryStep_of_moves (fun _ _ h => h) (fun _ _ h => h) fun _ _ => HistoryBounded.move

/-- Settles O4: every command keeps the bounds of the link port, whose FIFO takes a reply only where it has room, and every
move of the blocks keeps those of the history capture. -/
theorem linkAndHistoryStayBounded : Obligations.LinkAndHistoryStayBounded := fun s t ⟨hlink, hhistory⟩ ht =>
  ⟨(linkBounded_iff t).2 (((linkBounded_iff s).1 hlink).step ht), historyBounded_kept s t hhistory ht⟩

end Sys2Proof.Machine
end

section
/-! The requests of the history capture: HISTORY_FREEZE, HISTORY_READ and HISTORY_RESUME (R150 to R153, R177). -/

namespace Sys2Proof.Machine

open Sys2Proof

/-! ## The lengths of what a reply tells -/

theorem encCause_length_le (c : Cause) : (encCause c).length ≤ 2 := by cases c <;> simp [encCause]

theorem encFreezeSource_length_le (f : FreezeSource) : (encFreezeSource f).length ≤ 3 := by
  cases f <;> simp [encFreezeSource]

theorem encOpt_length {α : Type} {width : Nat} {enc : α → Bytes} (henc : ∀ a, (enc a).length = width) (o : Option α) :
    (encOpt width enc o).length = width + 1 := by
  cases o with
  | none => simp [encOpt]
  | some a => simp [encOpt, henc]

theorem encHistRec_length_le (x : HistRec × Nat) : (encHistRec x).length ≤ 17 := by
  have hprevious := encOpt_length (enc := encAspect) (width := 3) (fun _ => rfl) x.1.previous
  have hcause := encCause_length_le x.1.cause
  simp only [encHistRec, enc8, encClock, encAspect, List.length_append, List.length_cons, List.length_nil, hprevious]
  omega

theorem flatMap_length_le {α : Type} {f : α → Bytes} {w : Nat} (hf : ∀ a, (f a).length ≤ w) (xs : List α) :
    (xs.flatMap f).length ≤ w * xs.length := by
  induction xs with
  | nil => simp
  | cons x xs ih =>
    rw [List.flatMap_cons, List.length_append, List.length_cons, Nat.mul_succ, Nat.add_comm]
    exact Nat.add_le_add ih (hf x)

theorem History.slice_length_le (h : History) (start count : Nat) : (h.slice start count).length ≤ count :=
  List.length_take_le _ _

/-! ## HISTORY_FREEZE (R150, R151) -/

/-- A frozen capture stays as it is. -/
theorem State.freeze_frozen {s : State} {f : Freeze} (h : s.history.frozen = some f) (source : FreezeSource) :
    s.freeze source = s := by
  simp [State.freeze, h]

/-- A capturing one is frozen at this moment, with the report. -/
theorem State.freeze_capturing {s : State} (h : s.history.frozen = none) (source : FreezeSource) :
    s.freeze source = State.report { s with history := { s.history with frozen := some ⟨s.clock, source⟩ } }
      (.historyFrozen ⟨s.clock, source⟩ s.history.ring.length s.history.written) := by
  simp [State.freeze, h]

theorem historyFreezeEffect_frozen {s : State} {f : Freeze} (h : s.history.frozen = some f) (b : Bytes) :
    historyFreezeEffect b s = accept ([0] ++ encClock f.time ++ encFreezeSource f.source ++ encHeld s.history) s := by
  simp [historyFreezeEffect, State.freeze_frozen h, h, encBool, encFreeze]

theorem historyFreezeEffect_capturing {s : State} (h : s.history.frozen = none) (b : Bytes) :
    historyFreezeEffect b s = accept ([1] ++ encClock s.clock ++ [0] ++ encHeld s.history) (s.freeze .request) := by
  simp [historyFreezeEffect, State.freeze_capturing h, h, encBool, encFreeze, encFreezeSource, encHeld]

/-! ## HISTORY_READ (R152) -/

theorem historyReadEffect_count {s : State} {start count : Byte} (h : ¬ (1 ≤ count.toNat ∧ count.toNat ≤ 8)) :
    historyReadEffect [start, count] s = badValue 2 s := by
  simp [historyReadEffect, historyReadFields, firstBad, within, u8At, h]

theorem historyReadFields_pass {start count : Byte} (h : 1 ≤ count.toNat ∧ count.toNat ≤ 8) :
    firstBad (historyReadFields [start, count]) = none := by
  simp [historyReadFields, firstBad, within, u8At, h]

theorem historyReadEffect_capturing {s : State} {start count : Byte} (hcount : 1 ≤ count.toNat ∧ count.toNat ≤ 8)
    (h : s.history.frozen = none) : historyReadEffect [start, count] s = refuse .notFrozen s := by
  simp [historyReadEffect, historyReadFields_pass hcount, h]

theorem historyReadEffect_frozen {s : State} {start count : Byte} {f : Freeze}
    (hcount : 1 ≤ count.toNat ∧ count.toNat ≤ 8) (h : s.history.frozen = some f) :
    historyReadEffect [start, count] s = accept (encClock f.time ++ encFreezeSource f.source ++ encHeld s.history
      ++ [byteOf (s.history.slice start.toNat count.toNat).length]
      ++ (s.history.slice start.toNat count.toNat).flatMap encHistRec) s := by
  simp [historyReadEffect, historyReadFields_pass hcount, h, encFreeze, encList, u8At]

/-- Eight records of seventeen bytes fit a frame. -/
theorem historyRead_fits (f : Freeze) (h : History) (start : Nat) {count : Nat} (hcount : count ≤ 8) :
    (Result.ok.code :: (encClock f.time ++ encFreezeSource f.source ++ encHeld h
      ++ [byteOf (h.slice start count).length] ++ (h.slice start count).flatMap encHistRec)).length ≤ 240 := by
  have hsource := encFreezeSource_length_le f.source
  have hrecords := flatMap_length_le encHistRec_length_le (h.slice start count)
  have hslice := h.slice_length_le start count
  simp only [encClock, encHeld, enc16, List.length_append, List.length_cons, List.length_nil]
  omega

/-! ## The three requests -/

/-- Settles O60: a freeze, of a capture in either state, a read, and a resume, each by its effect. -/
theorem historyFreezesReadsAndResumes : Obligations.HistoryFreezesReadsAndResumes := by
  intro s tag start count hr
  have hlength : ([start, count] : Bytes).length ≤ 240 := by simp
  refine ⟨fun hcapturing => ⟨?_, fun hlow hhigh => ?_⟩, fun f hfrozen => ⟨?_, fun hlow hhigh => ?_⟩, fun hcount => ?_, ?_⟩
  · have heffect := historyFreezeEffect_capturing (s := s.heard) hcapturing []
    rw [State.freeze_capturing (s := s.heard) hcapturing] at heffect
    exact Acts.of_effect (k := .historyFreeze) hr (by simp) rfl (by simp [encClock, twoBytes]) heffect
      (rs := [.historyFrozen ⟨s.clock, .request⟩ s.history.ring.length s.history.written]) rfl hr.1 rfl
  · exact OnlyAnswers.of_effect (k := .historyRead) hr hlength rfl (by simp)
      (historyReadEffect_capturing (s := s.heard) ⟨hlow, hhigh⟩ hcapturing)
  · have hsource := encFreezeSource_length_le f.source
    exact OnlyAnswers.of_effect (k := .historyFreeze) hr (by simp) rfl (by simp [encClock, twoBytes]; omega)
      (historyFreezeEffect_frozen (s := s.heard) hfrozen [])
  · exact OnlyAnswers.of_effect (k := .historyRead) hr hlength rfl (historyRead_fits f s.history start.toNat hhigh)
      (historyReadEffect_frozen (s := s.heard) ⟨hlow, hhigh⟩ hfrozen)
  · exact OnlyAnswers.of_effect (k := .historyRead) hr hlength rfl (by simp) (historyReadEffect_count (s := s.heard) hcount)
  · exact Acts.of_effect (k := .historyResume) (t := { s.heard with history := History.empty }) (rs := []) hr (by simp) rfl
      (by simp) rfl rfl hr.1 rfl

end Sys2Proof.Machine
end

section
/-! The receiver of the host link: the rows of its table, a whole frame fed character by character, and what an arriving frame
comes to before any block sees it (R155 to R161, R170, R173 to R175). -/

namespace Sys2Proof.Machine

open Sys2Proof

/-! ## Kinds (R175) -/

theorem requestKindOf_code (k : RequestKind) : requestKindOf k.code = some k := by cases k <;> rfl

theorem requestKind_code_lt (k : RequestKind) : k.code.toNat < 0x80 := by cases k <;> decide

/-- A byte that is the code of no kind names no request. -/
theorem requestKindOf_eq_none {kind : Byte} (h : kind ∉ requestKinds.map RequestKind.code) : requestKindOf kind = none :=
  List.find?_eq_none.2 fun k hk hcode => h (List.mem_map.2 ⟨k, hk, eq_of_beq hcode⟩)

/-! ## The arrival of a frame (R157, R160, R161, R170) -/

theorem State.arriveFrame_code (s : State) (k : RequestKind) (tag : Byte) (body : Bytes) :
    s.arriveFrame k.code tag body = s.take k tag body (requestEffect k) := by
  rw [State.arriveFrame, requestKindOf_code]

/-- A request command is the arrival of its frame. -/
theorem exec_requestInstr_arriveFrame (k : RequestKind) (tag : Byte) (body : Bytes) (s : State) :
    exec (requestInstr k tag body) s = .next (s.arriveFrame k.code tag body) := by
  rw [exec_requestInstr, State.arriveFrame_code]

theorem State.arriveFrame_unknown {kind : Byte} (h : requestKindOf kind = none) (s : State) (tag : Byte) (body : Bytes) :
    s.arriveFrame kind tag body = s.arrive body (fun t => (t, unknownReply tag)) := by
  rw [State.arriveFrame, h]

/-- Whatever its kind, a good frame arrives: the kind fixes only the act. -/
theorem arriveFrame_eq_arrive (kind tag : Byte) (body : Bytes) :
    ∃ act, ∀ s : State, s.arriveFrame kind tag body = s.arrive body act := by
  cases h : requestKindOf kind with
  | none => exact ⟨_, fun s => s.arriveFrame_unknown h tag body⟩
  | some k => exact ⟨_, fun s => by rw [State.arriveFrame, h]; rfl⟩

/-- What the receiver was assembling does not matter to a frame that arrives. -/
theorem State.arriveFrame_setReceiver {s : State} (h : s.nrstLow = false) (r : Receiver) (kind tag : Byte) (body : Bytes) :
    (s.setReceiver r).arriveFrame kind tag body = s.arriveFrame kind tag body := by
  obtain ⟨act, hact⟩ := arriveFrame_eq_arrive kind tag body
  have hhigh : ¬ s.nrstLow = true := by simp [h]
  rw [hact, hact, State.arrive, State.arrive, if_neg hhigh, if_neg (c := (s.setReceiver r).nrstLow = true) hhigh]
  rfl

/-- R160. -/
theorem State.arriveFrame_full {s : State} {body : Bytes} (h : s.nrstLow = false) (hb : body.length ≤ 240)
    (hp : s.link.resetPending = false) (hf : 4 ≤ s.link.replies.length) (kind tag : Byte) :
    s.arriveFrame kind tag body = { s with link := { s.link with
      rx := .hunt, overrun := true, requestDiscards := min (s.link.requestDiscards + 1) 65535 } } := by
  obtain ⟨act, hact⟩ := arriveFrame_eq_arrive kind tag body
  rw [hact, State.arrive_full h hb hp hf]

/-- R170. -/
theorem State.arriveFrame_lost {s : State} {body : Bytes} (h : s.nrstLow = false) (hb : body.length ≤ 240)
    (hp : s.link.resetPending = true) (kind tag : Byte) :
    s.arriveFrame kind tag body = { s with link := { s.link with rx := .hunt } } := by
  obtain ⟨act, hact⟩ := arriveFrame_eq_arrive kind tag body
  rw [hact, State.arrive_lost h hb hp]

theorem State.discardRequest_full {s : State} (h : s.nrstLow = false) (hp : s.link.resetPending = false)
    (hf : 4 ≤ s.link.replies.length) :
    s.discardRequest = { s with link := { s.link with
      rx := .hunt, overrun := true, requestDiscards := min (s.link.requestDiscards + 1) 65535 } } := by
  have hroom : ¬ s.link.replies.length < Config.replyCapacity := Nat.not_lt.2 hf
  exact if_neg (by simp [h, hp, hroom])

/-! ## The rows of the receiver's table (R156, R157, R159) -/

theorem exec_hostCharacterReceived (c : Byte) (s : State) : exec (.hostCharacterReceived c) s = .next (s.receive c) := rfl

@[simp] theorem State.setReceiver_setReceiver (s : State) (r r' : Receiver) :
    (s.setReceiver r).setReceiver r' = s.setReceiver r' := rfl

section Rows

variable {s : State} (h : s.nrstLow = false)

include h

theorem State.receive_hunt (hrx : s.link.rx = .hunt) (c : Byte) :
    s.receive c = if c = 0x7E then s.setReceiver (.header []) else s := by
  simp [State.receive, h, hrx]

theorem State.receive_header {kept : Bytes} (hrx : s.link.rx = .header kept) (c : Byte) :
    s.receive c = s.headerChar kept c := by
  simp [State.receive, h, hrx]

theorem State.receive_body {head : FrameHead} {kept : Bytes} (hrx : s.link.rx = .body head kept) (c : Byte) :
    s.receive c = s.bodyChar head kept c := by
  simp [State.receive, h, hrx]

theorem State.receive_check {head : FrameHead} {body : Bytes} {first : Option Byte}
    (hrx : s.link.rx = .check head body first) (c : Byte) : s.receive c = s.checkChar head body first c := by
  simp [State.receive, h, hrx]

theorem State.receive_start (hrx : s.link.rx = .hunt) : s.receive 0x7E = s.setReceiver (.header []) :=
  State.receive_hunt h hrx 0x7E

theorem State.receive_noise (hrx : s.link.rx = .hunt) {c : Byte} (hc : c ≠ 0x7E) : s.receive c = s :=
  (State.receive_hunt h hrx c).trans (if_neg hc)

theorem State.receive_tooLong (hrx : s.link.rx = .header []) {c : Byte} (hc : 240 < c.toNat) :
    s.receive c = s.discardFrame :=
  (State.receive_header h hrx c).trans (if_pos hc)

theorem State.receive_length (hrx : s.link.rx = .header []) {c : Byte} (hc : c.toNat ≤ 240) :
    s.receive c = s.setReceiver (.header [c]) :=
  (State.receive_header h hrx c).trans (if_neg (Nat.not_lt.2 hc))

theorem State.receive_bodyByte {head : FrameHead} {kept : Bytes} (hrx : s.link.rx = .body head kept) {c : Byte}
    (hc : kept.length + 1 < head.length.toNat) : s.receive c = s.setReceiver (.body head (kept ++ [c])) :=
  (State.receive_body h hrx c).trans (if_neg (Nat.not_le.2 hc))

theorem State.receive_bodyEnd {head : FrameHead} {kept : Bytes} (hrx : s.link.rx = .body head kept) {c : Byte}
    (hc : kept.length + 1 = head.length.toNat) : s.receive c = s.setReceiver (.check head (kept ++ [c]) none) :=
  (State.receive_body h hrx c).trans (if_pos (Nat.le_of_eq hc.symm))

/-- The second check byte of a frame whose check fails (R159). -/
theorem State.receive_bad {head : FrameHead} {body : Bytes} {f c : Byte} (hrx : s.link.rx = .check head body (some f))
    (hcrc : [f, c] ≠ checkBytes (checked head body)) : s.receive c = s.discardFrame :=
  (State.receive_check h hrx c).trans (if_neg hcrc)

/-- The second check byte of a good frame. -/
theorem State.receive_good {head : FrameHead} {body : Bytes} {f c : Byte} (hrx : s.link.rx = .check head body (some f))
    (hcrc : [f, c] = checkBytes (checked head body)) : s.receive c = s.arriveFrame head.kind head.tag body :=
  (State.receive_check h hrx c).trans (if_pos hcrc)

end Rows

/-! ## A frame fed character by character (R155, R157, R173) -/

theorem feed_cons (c : Byte) (rest : Bytes) (s : State) : feed (c :: rest) s = feed rest (s.receive c) := rfl

/-- Start and header: the receiver expects the body, or the check where the length is 0. -/
theorem feed_header {s : State} (h : s.nrstLow = false) (hrx : s.link.rx = .hunt) (head : FrameHead)
    (hlength : head.length.toNat ≤ 240) (rest : Bytes) :
    feed (0x7E :: head.length :: head.kind :: head.tag :: head.flags :: rest) s
      = feed rest (s.setReceiver (afterHead head)) := by
  have hnext : ∀ (kept : Bytes) (c : Byte),
      (s.setReceiver (.header kept)).receive c = (s.setReceiver (.header kept)).headerChar kept c :=
    fun kept => State.receive_header (s := s.setReceiver (.header kept)) h rfl
  have hfirst : (s.setReceiver (.header [])).receive head.length = s.setReceiver (.header [head.length]) :=
    State.receive_length (s := s.setReceiver (.header [])) h rfl hlength
  simp only [feed_cons, State.receive_start h hrx, hfirst, hnext, State.headerChar, State.setReceiver_setReceiver]

/-- The bytes still missing from the body: the receiver keeps them and expects the check. -/
theorem feed_body {s : State} (h : s.nrstLow = false) (head : FrameHead) (missing kept rest : Bytes)
    (hne : missing ≠ []) (hlength : kept.length + missing.length = head.length.toNat) :
    feed (missing ++ rest) (s.setReceiver (.body head kept))
      = feed rest (s.setReceiver (.check head (kept ++ missing) none)) := by
  induction missing generalizing kept with
  | nil => exact absurd rfl hne
  | cons c missing ih =>
    rw [List.cons_append, feed_cons]
    rw [List.length_cons] at hlength
    cases missing with
    | nil =>
      rw [State.receive_bodyEnd (s := s.setReceiver (.body head kept)) h rfl hlength]
      rfl
    | cons d missing =>
      have hshort : kept.length + 1 < head.length.toNat := by
        rw [List.length_cons] at hlength
        omega
      have hrest : (kept ++ [c]).length + (d :: missing).length = head.length.toNat := by
        rw [List.length_append, List.length_singleton, ← hlength]
        omega
      rw [State.receive_bodyByte (s := s.setReceiver (.body head kept)) h rfl hshort, State.setReceiver_setReceiver,
        ih _ (List.cons_ne_nil d missing) hrest, List.append_assoc, List.singleton_append]

/-- The body, empty or not, after the header. -/
theorem feed_afterHead {s : State} (h : s.nrstLow = false) (head : FrameHead) (body rest : Bytes)
    (hlength : body.length = head.length.toNat) :
    feed (body ++ rest) (s.setReceiver (afterHead head)) = feed rest (s.setReceiver (.check head body none)) := by
  by_cases hzero : head.length = 0
  · obtain rfl : body = [] := List.length_eq_zero_iff.1 (by simpa [hzero] using hlength)
    rw [afterHead, if_pos hzero]
    rfl
  · have hne : body ≠ [] := by
      rintro rfl
      exact hzero (BitVec.eq_of_toNat_eq hlength.symm)
    rw [afterHead, if_neg hzero, feed_body h head body [] rest hne (by simpa using hlength)]
    rfl

/-- The two check bytes of a good frame: it arrives. -/
theorem feed_check {s : State} (h : s.nrstLow = false) (head : FrameHead) (body : Bytes) :
    feed (checkBytes (checked head body)) (s.setReceiver (.check head body none))
      = .next (s.arriveFrame head.kind head.tag body) := by
  obtain ⟨f, c, hcrc⟩ : ∃ f c, checkBytes (checked head body) = [f, c] := ⟨_, _, rfl⟩
  have hfirst : (s.setReceiver (.check head body none)).receive f = s.setReceiver (.check head body (some f)) :=
    State.receive_check (s := s.setReceiver (.check head body none)) h rfl f
  have hsecond : (s.setReceiver (.check head body (some f))).receive c
      = (s.setReceiver (.check head body (some f))).arriveFrame head.kind head.tag body :=
    State.receive_good (s := s.setReceiver (.check head body (some f))) h rfl hcrc.symm
  rw [hcrc, feed_cons, hfirst, feed_cons, hsecond, State.arriveFrame_setReceiver h]
  rfl

/-- The characters of a frame of any kind are its arrival. -/
theorem feed_wireOf {s : State} (h : s.nrstLow = false) (hrx : s.link.rx = .hunt) (kind tag flags : Byte) {body : Bytes}
    (hb : body.length ≤ 240) : feed (wireOf kind tag flags body) s = .next (s.arriveFrame kind tag body) := by
  have hlength : (byteOf body.length).toNat = body.length := by
    rw [BitVec.toNat_ofNat]
    omega
  let head : FrameHead := ⟨byteOf body.length, kind, tag, flags⟩
  calc feed (wireOf kind tag flags body) s
      = feed (body ++ checkBytes (checked head body)) (s.setReceiver (afterHead head)) :=
        feed_header h hrx head (hlength ▸ hb) _
    _ = feed (checkBytes (checked head body)) (s.setReceiver (.check head body none)) :=
        feed_afterHead h head body _ hlength.symm
    _ = .next (s.arriveFrame kind tag body) := feed_check h head body

/-! ## Bad frames (R156, R158, R159) -/

theorem State.dropFrame_assembling {s : State} (h : s.nrstLow = false) (hrx : s.link.rx ≠ .hunt) :
    s.dropFrame = s.discardFrame := by
  have hassembling : s.link.rx.assembling = true := by
    cases hr : s.link.rx with
    | hunt => exact absurd hr hrx
    | header | body | check => rfl
  simp [State.dropFrame, h, hassembling]

theorem State.dropFrame_hunt {s : State} (hrx : s.link.rx = .hunt) : s.dropFrame = s := by
  simp [State.dropFrame, hrx, Receiver.assembling]

/-! ## The obligations of the receiver -/

/-- Settles O11: fed whole, a frame of any kind arrives, and a request command is the arrival of its frame. -/
theorem wireFrameActsAsItsRequest : Obligations.WireFrameActsAsItsRequest := by
  intro k tag flags body s hb hrx h
  rw [feed_wireOf h hrx k.code tag flags hb, exec_requestInstr_arriveFrame]

/-- Settles O12, a row of the receiver's table for each clause. -/
theorem hostCharacterMovesTheReceiver : Obligations.HostCharacterMovesTheReceiver := by
  intro s c
  refine ⟨fun hlow => congrArg _ (if_pos hlow), fun h => ⟨?_, ?_, ?_, ?_, ?_, ?_, ?_, ?_, ?_, ?_, ?_, ?_, ?_, ?_⟩⟩
  · rintro hrx rfl
    exact congrArg _ (State.receive_start h hrx)
  · exact fun hrx hc => congrArg _ (State.receive_noise h hrx hc)
  · exact fun hrx hc => congrArg _ (State.receive_tooLong h hrx hc)
  · exact fun hrx hc => congrArg _ (State.receive_length h hrx hc)
  · exact fun length hrx => congrArg _ (State.receive_header h hrx c)
  · exact fun length kind hrx => congrArg _ (State.receive_header h hrx c)
  · intro length kind tag hrx hzero
    have hafter : afterHead ⟨length, kind, tag, c⟩ = .check ⟨length, kind, tag, c⟩ [] none := if_pos hzero
    exact congrArg _ ((State.receive_header h hrx c).trans (congrArg s.setReceiver hafter))
  · intro length kind tag hrx hlength
    have hafter : afterHead ⟨length, kind, tag, c⟩ = .body ⟨length, kind, tag, c⟩ [] := if_neg hlength
    exact congrArg _ ((State.receive_header h hrx c).trans (congrArg s.setReceiver hafter))
  · exact fun head kept hrx hc => congrArg _ (State.receive_bodyByte h hrx hc)
  · exact fun head kept hrx hc => congrArg _ (State.receive_bodyEnd h hrx hc)
  · exact fun head body hrx => congrArg _ (State.receive_check h hrx c)
  · exact fun head body f hrx hcrc => congrArg _ (State.receive_bad h hrx hcrc)
  · intro head body f k hrx hcrc hkind
    rw [exec_hostCharacterReceived, State.receive_good h hrx hcrc, hkind, exec_requestInstr_arriveFrame]
  · intro head body f hrx hcrc _
    exact congrArg _ (State.receive_good h hrx hcrc)

/-- Settles O13: each of the three events discards the frame, but a framing error and a gap find none in HUNT. -/
theorem badFramesAreDiscardedAndCounted : Obligations.BadFramesAreDiscardedAndCounted := by
  intro s h
  refine ⟨congrArg _ (if_neg (by simp [h])), fun hrx => ?_, fun hrx => ?_⟩
  · exact ⟨congrArg _ (State.dropFrame_assembling h hrx), congrArg _ (State.dropFrame_assembling h hrx)⟩
  · exact ⟨congrArg _ (State.dropFrame_hunt hrx), congrArg _ (State.dropFrame_hunt hrx)⟩

/-- Settles O14: a frame that arrives is discarded or lost before its kind is looked at. -/
theorem requestsAreLostAtAFullFifoOrAfterReset : Obligations.RequestsAreLostAtAFullFifoOrAfterReset := by
  intro s h
  refine ⟨fun hp hf => ⟨congrArg _ (State.discardRequest_full h hp hf), fun k tag body hb => ?_,
    fun kind tag body hb => ?_⟩, fun hp => ⟨fun k tag body hb => ?_, fun kind tag body hb => ?_⟩⟩
  · rw [exec_requestInstr_arriveFrame, State.arriveFrame_full h hb hp hf]
  · exact congrArg _ (State.arriveFrame_full h hb hp hf kind tag)
  · rw [exec_requestInstr_arriveFrame, State.arriveFrame_lost h hb hp]
  · exact congrArg _ (State.arriveFrame_lost h hb hp kind tag)

/-- Settles O15: the listed codes are those of all kinds, so any other byte names no request, and its frame is answered
without an effect. -/
theorem unknownKindIsAnswered : Obligations.UnknownKindIsAnswered := by
  refine ⟨fun s kind tag body hr hb hkind => ?_, fun k => ⟨requestKindOf_code k, requestKind_code_lt k⟩⟩
  have hexec : exec (.unknownKind kind tag body) s = .next (s.arrive body (fun t => (t, unknownReply tag))) :=
    congrArg _ (s.arriveFrame_unknown (requestKindOf_eq_none hkind) tag body)
  exact Acts.of_arrive (t := s.heard) (rs := []) hexec hr hb rfl rfl hr.1 rfl

/-- Settles O16: the length test fails, so the request is refused before its effect. -/
theorem misfitBodyIsAnsweredBadLength : Obligations.MisfitBodyIsAnsweredBadLength := by
  intro k s tag body hr hb hmisfit
  have hfails : ¬ lengthFits k body = true := fun hfits => hmisfit ((lengthFits_iff k body).1 hfits)
  refine Acts.of_arrive (t := s.heard) (rs := []) (exec_requestInstr k tag body s) hr hb ?_ rfl hr.1 rfl
  simp only [if_neg hfails]
  rfl

end Sys2Proof.Machine
end

section
/-! The transmitter and the report queue: the choice of a free transmitter, the placing of a report, the items of every report,
and the two requests that tell of the part itself (R163 to R170, R175, R177). -/

namespace Sys2Proof.Machine

open Sys2Proof

/-! ## The choice of a free transmitter (R163, R164, R170) -/

section Choice

variable (now : Clock) (panels : List PanelRec) {l : Link}

theorem Link.choose_reply {f : Frame} {rest : List Frame} (h : l.replies = f :: rest) :
    l.choose now panels = l.startReply f rest := by
  simp [Link.choose, h]

theorem Link.choose_urgent {r : Report} {rest : List Report} (hreplies : l.replies = []) (hpending : l.resetPending = false)
    (h : l.urgent = r :: rest) : l.choose now panels = Link.startReport { l with urgent := rest } (r.frame now panels) := by
  simp [Link.choose, hreplies, hpending, h]

theorem Link.choose_routine {r : Report} {rest : List Report} (hreplies : l.replies = []) (hpending : l.resetPending = false)
    (hurgent : l.urgent = []) (h : l.routine = r :: rest) :
    l.choose now panels = Link.startReport { l with routine := rest } (r.frame now panels) := by
  simp [Link.choose, hreplies, hpending, hurgent, h]

theorem Link.choose_nothing (hreplies : l.replies = []) (h : l.resetPending = true ∨ (l.urgent = [] ∧ l.routine = [])) :
    l.choose now panels = l := by
  rcases h with hpending | ⟨hurgent, hroutine⟩
  · simp [Link.choose, hreplies, hpending]
  · simp [Link.choose, hreplies, hurgent, hroutine]

end Choice

/-- A free transmitter chooses. -/
theorem State.transmit_free {s : State} (hnrst : s.nrstLow = false) (htx : s.link.tx = none) :
    s.transmit = { s with link := s.link.choose s.clock s.panels } :=
  if_neg (by simp [hnrst, htx])

/-- Nothing starts while NRST is low or a frame is under way. -/
theorem State.transmit_held {s : State} (h : s.nrstLow = true ∨ s.link.tx ≠ none) : s.transmit = s :=
  if_pos (by simpa [Option.isSome_iff_ne_none] using h)

theorem State.transmit_chooses {s : State} (hnrst : s.nrstLow = false) (htx : s.link.tx = none) : Chooses s s.transmit := by
  rw [State.transmit_free hnrst htx]
  refine ⟨fun f rest h => ?_, fun r rest hreplies hpending h => ?_, fun r rest hreplies hpending hurgent h => ?_,
    fun hreplies h => ?_⟩
  · rw [Link.choose_reply _ _ h]
    rfl
  · rw [Link.choose_urgent _ _ hreplies hpending h]
    rfl
  · rw [Link.choose_routine _ _ hreplies hpending hurgent h]
    rfl
  · rw [Link.choose_nothing _ _ hreplies h]

/-- RESET's reply is known by its kind and its body (R170). -/
theorem isResetReply_iff (f : Frame) : isResetReply f = true ↔ f.kind = 0x83 ∧ f.body = [0x00] := by
  simp [isResetReply, RequestKind.code, Result.code]

/-- The end of a frame that is not RESET's reply frees the transmitter (R163). -/
theorem State.endFrame_other {s : State} {x : TxFrame} (htx : s.link.tx = some x)
    (h : s.link.resetPending = false ∨ x.frame.kind ≠ 0x83 ∨ x.frame.body ≠ [0x00]) :
    s.endFrame = State.transmit { s with link := { s.link with tx := none } } := by
  have hother : ¬ (s.link.resetPending && isResetReply x.frame) = true := by
    rw [Bool.and_eq_true, isResetReply_iff]
    rintro ⟨hpending, hkind, hbody⟩
    rcases h with h | h | h
    · simp [hpending] at h
    · exact h hkind
    · exact h hbody
  simp only [State.endFrame, htx, if_neg hother]

/-! ## Placing a report, row by row (R165, R166) -/

section Placing

variable {l : Link}

theorem Link.hasRoom_of_not_full (h : ¬ 32 ≤ l.urgent.length + l.routine.length) : l.hasRoom = true :=
  (Link.hasRoom_iff l).2 (Nat.not_le.1 h)

theorem Link.not_hasRoom_of_full (h : 32 ≤ l.urgent.length + l.routine.length) : ¬ l.hasRoom = true :=
  fun hroom => Nat.not_lt.2 h ((Link.hasRoom_iff l).1 hroom)

/-- Every report but GANTRY_SHOWN and WARNING_STATE is urgent (9.7). -/
theorem Link.place_of_urgent {r : Report} (h : (∀ g, r ≠ .gantryShown g) ∧ ∀ c e w, r ≠ .warningState c e w) :
    l.place r = l.placeUrgent r := by
  cases r with
  | gantryShown g => exact absurd rfl (h.1 g)
  | warningState c e w => exact absurd rfl (h.2 c e w)
  | restart | triggerFired | panelHealth | closureState | lineState | historyFrozen => rfl

theorem Link.askShown_queued {g : Nat} (h : .gantryShown g ∈ l.routine) : l.askShown g = l :=
  if_pos (by simpa [Link.shownQueued] using h)

/-- A routine report is placed as such, unless it is a GANTRY_SHOWN queued already. -/
theorem Link.place_of_routine {r : Report} (h : ¬ ((∀ g, r ≠ .gantryShown g) ∧ ∀ c e w, r ≠ .warningState c e w))
    (hqueued : ¬ ∃ g, r = .gantryShown g ∧ .gantryShown g ∈ l.routine) : l.place r = l.placeRoutine r := by
  cases r with
  | gantryShown g =>
    have hnot : ¬ l.shownQueued g = true := by
      intro hshown
      exact hqueued ⟨g, rfl, by simpa [Link.shownQueued] using hshown⟩
    exact if_neg hnot
  | warningState => rfl
  | restart | triggerFired | panelHealth | closureState | lineState | historyFrozen => simp at h

theorem Link.placing_place (l : Link) (r : Report) : Placing l r (l.place r) := by
  refine ⟨fun hurgent hroom => ?_, fun hurgent hfull oldest rest hroutine => ?_, fun hurgent hfull hroutine => ?_,
    ?_, fun hroutine hqueued hroom => ?_, fun hroutine hqueued hfull => ?_⟩
  · rw [Link.place_of_urgent hurgent]
    exact if_pos (Link.hasRoom_of_not_full hroom)
  · rw [Link.place_of_urgent hurgent, Link.placeUrgent, if_neg (Link.not_hasRoom_of_full hfull), hroutine]
  · rw [Link.place_of_urgent hurgent, Link.placeUrgent, if_neg (Link.not_hasRoom_of_full hfull), hroutine]
  · rintro ⟨g, rfl, hqueued⟩
    exact Link.askShown_queued hqueued
  · rw [Link.place_of_routine hroutine hqueued]
    exact if_pos (Link.hasRoom_of_not_full hroom)
  · rw [Link.place_of_routine hroutine hqueued]
    exact if_neg (Link.not_hasRoom_of_full hfull)

end Placing

/-! ## The items of every report (R175, R177) -/

theorem enc8_eq : enc8 = fun n => [byteOf n] := rfl

theorem addrBytes_eq (a : PanelAddr) : addrBytes a = [lineCode a.line, byteOf a.address] := by
  obtain ⟨line, address⟩ := a
  cases line <;> rfl

theorem encReadVal_eq (v : ReadVal) : encReadVal v = valueReadItem v := by cases v <;> rfl

theorem Mark.code_eq (m : Mark) : m.code = markItem m := by cases m <;> rfl

/-- The duty counts are carried in ARROWS, DWELL and CLOSED (R106). -/
theorem encDutyCounts_eq (c : Closure) (after : Option ClosureState) : encDutyCounts c after =
    if after = some .arrows ∨ after = some .dwell ∨ after = some .closed then
      [byteOf c.duties.length, byteOf (c.duties.filter (·.settled)).length] else [] := by
  cases after with
  | none => rfl
  | some state => cases state <;> rfl

theorem reportItems_eq (now : Clock) (panels : List PanelRec) (r : Report) :
    (r.kind, r.body now panels) = reportItems now panels r := by
  cases r with
  | restart => rfl
  | triggerFired =>
    simp [Report.kind, Report.body, reportItems, encReadVal_eq, enc8, encBool]
  | panelHealth =>
    simp [Report.kind, Report.body, reportItems, enc8_eq, encBool, addrBytes_eq]
  | closureState clock event before after c =>
    cases event <;> cases after <;>
      simp [Report.kind, Report.body, reportItems, encDutyCounts_eq, encClosureEvent, Mark.code_eq, endedCode, enc8_eq, encList,
        ← List.map_eq_flatMap]
  | gantryShown =>
    simp [Report.kind, Report.body, reportItems, shownAspects, enc8, List.flatMap_map]
  | lineState =>
    simp [Report.kind, Report.body, reportItems, enc8, encBool]
  | warningState clock event w =>
    cases event <;> simp [Report.kind, Report.body, reportItems, encWarningEvent, enc8]
  | historyFrozen => rfl

/-- Settles O17: a free transmitter makes the choice of R163, at the end of a frame and of any event, and every report is placed
and sent row by row. -/
theorem frameEndStartsTheOldestWaiting : Obligations.FrameEndStartsTheOldestWaiting := by
  refine ⟨fun s x hnrst htx hother => ⟨_, congrArg Host.Outcome.next (State.endFrame_other htx hother), ?_⟩,
    fun s => ⟨State.transmit_chooses, State.transmit_held⟩, Link.placing_place, reportItems_eq⟩
  exact State.transmit_chooses (s := { s with link := { s.link with tx := none } }) hnrst rfl

/-! ## IDENTIFY and STATUS (R168, R169) -/

theorem identifyEffect_eq (b : Bytes) (s : State) : identifyEffect b s =
    (s, [0x00, 7, 0x50, 0x65, 0x6C, 0x6F, 0x72, 0x69, 0x6E,
      11, 0x43, 0x6F, 0x72, 0x62, 0x65, 0x6B, 0x20, 0x43, 0x41, 0x33, 0x32, 1, s.resetCause.code]) := rfl

theorem encFreeze_length_le (f : Option Freeze) : (encFreeze f).length ≤ 7 := by
  cases f with
  | none => simp [encFreeze]
  | some f =>
    have hsource := encFreezeSource_length_le f.source
    simp only [encFreeze, encClock, List.length_append, List.length_cons, List.length_nil]
    omega

/-- The snapshot is short of a frame's limit. -/
theorem State.snapshot_length_le (s : State) : s.snapshot.length ≤ 100 := by
  have hfreeze := encFreeze_length_le s.history.frozen
  simp only [State.snapshot, lineIds, List.flatMap_cons, List.flatMap_nil, encLineStatus, encCapture, encLinkStatus, encHeld,
    enc8, enc16, encBool, encSet, encClock, List.length_append, List.length_cons, List.length_nil]
  omega

/-- Settles O21: each of the two tells its items and leaves the state. -/
theorem identifyAndStatusTellTheirItems : Obligations.IdentifyAndStatusTellTheirItems := by
  intro s tag hr
  constructor
  · exact OnlyAnswers.of_effect (k := .identify) hr (by simp) rfl (by simp) (identifyEffect_eq [] s.heard)
  · have hanswer : OnlyAnswers (.status tag []) s 0x82 tag (0x00 :: s.snapshot) :=
      OnlyAnswers.of_effect (k := .status) hr (by simp) rfl
        (Nat.le_trans (Nat.succ_le_succ s.snapshot_length_le) (by decide)) rfl
    refine (congrArg (OnlyAnswers (.status tag []) s 0x82 tag) ?_).mp hanswer
    cases hfrozen : s.history.frozen <;>
      simp [State.snapshot, State.enabledPrograms, programNumbers, lineIds, encLineStatus, encCapture, encHeld, encFreeze,
        encLinkStatus, enc8, enc16, twoBytes, encBool, hfrozen]

end Sys2Proof.Machine
end

section
/-! A step of the machine: the command at the front of the queue, or an idle step where none waits (spec/95). -/

namespace Sys2Proof.Machine

/-- A waiting command is taken off the queue before it runs, so what it does starts from the queue's rest. -/
theorem step_of_pending_cons {s : State} {i : Instr} {rest : List Instr} (hfront : s.pending = i :: rest) :
    step s = exec i { s with pending := rest } := by
  rw [step, hfront]

/-- The idle step (notes/assumptions/1.md). -/
theorem step_of_pending_nil {s : State} (hempty : s.pending = []) : step s = .next s := by
  rw [step, hempty]

/-- Settles O1, by the two cases of the queue. -/
theorem stepRunsTheFrontCommand : Obligations.StepRunsTheFrontCommand :=
  ⟨fun _ _ _ => step_of_pending_cons, fun _ => step_of_pending_nil⟩

end Sys2Proof.Machine
end
